-- ==== Sys2Proof/Word.lean ====
section
/-! DEFINITION. The bit-vector widths the spec names. An offset in the option buffer has `CUR_W` bits, a width the parameter
`BUF_CAP` fixes, so it is a natural number, as the arithmetic of 00_scope.md R8 has it, and `State.Inv` says that it fits
(10_state.md R22 to R24; log entry 9). -/

namespace Sys2Proof

/-- A byte of the option buffer (10_state.md R21). -/
abbrev Byte := BitVec 8

/-- A marker: one half of a header byte (30_encoding.md R71). -/
abbrev Nibble := BitVec 4

/-- An option number, the width of `PREV` and `NUM` (10_state.md R25, R29). -/
abbrev OptNum := BitVec 16

/-- The value of an extended field, the width of `DELTA` and `OLEN` (10_state.md R30, R31). -/
abbrev Ext := BitVec 17

/-- The sum `PREV + d` before the registry check (10_state.md R29, 42_value_decode.md R150). -/
abbrev Sum := BitVec 18

end Sys2Proof
end

