-- ==== Sys2Proof/Config.lean ====
section
/-! DEFINITION. The implementation parameters of 00_scope.md R6 and the one free value of the model. -/

namespace Sys2Proof.Config

/-- What a registered number without a typed constructor does (00_scope.md R6 `UNTYPED_POLICY`). -/
inductive UntypedPolicy
  /-- The option is returned with variant `OPAQUE` (42_value_decode.md R159). -/
  | opaque_
  /-- The step faults with `UnknownOption` (42_value_decode.md R160). -/
  | strict
  deriving DecidableEq, Repr

/-- The parameters of 00_scope.md R6. They are configuration: fixed for the life of a model (10_state.md R41). -/
structure Params where
  /-- `PAYLOAD_MARKER`. -/
  payloadMarker : Byte
  /-- `REGISTRY`, the set of known option numbers; a list stands for the set of its members. -/
  registry : List OptNum
  /-- `NUM_URIPATH`. -/
  numUriPath : OptNum
  /-- `NUM_CONTENTFORMAT`. -/
  numContentFormat : OptNum
  /-- `NUM_BLOCK2`. -/
  numBlock2 : OptNum
  /-- `CONTENT_FORMATS`, a set of bytes. -/
  contentFormats : List Byte
  /-- `UNTYPED_POLICY`. -/
  untypedPolicy : UntypedPolicy
  /-- `BUF_CAP`, the capacity of the option buffer in bytes. -/
  bufCap : Nat
  deriving DecidableEq, Repr

/-- `CUR_W`: the least `w` with `BUF_CAP < 2^w` (00_scope.md R6). -/
def Params.curW (P : Params) : Nat := P.bufCap.log2 + 1

/-- The constraints of 00_scope.md R6: the typed numbers are distinct members of `REGISTRY`, `BUF_CAP` is at least 1. -/
abbrev Params.wf (P : Params) : Prop :=
  P.numUriPath ∈ P.registry ∧ P.numContentFormat ∈ P.registry ∧ P.numBlock2 ∈ P.registry ∧
  P.numUriPath ≠ P.numContentFormat ∧ P.numUriPath ≠ P.numBlock2 ∧ P.numContentFormat ≠ P.numBlock2 ∧
  1 ≤ P.bufCap

/-- The spec's own defaults (00_scope.md R6). PRESUMED: the spec marks all but `UNTYPED_POLICY` and `BUF_CAP` as general
knowledge (93_implementation_defined.md G1 to G4); unsafe for a claim that names a value, log entry 1. -/
def Params.default : Params where
  payloadMarker := 0xFF#8
  registry := [1#16, 3#16, 4#16, 5#16, 7#16, 8#16, 11#16, 12#16, 14#16, 15#16, 17#16, 20#16, 23#16, 27#16, 28#16, 35#16,
    39#16, 60#16]
  numUriPath := 11#16
  numContentFormat := 12#16
  numBlock2 := 23#16
  contentFormats := [0#8, 40#8, 41#8, 42#8, 47#8, 50#8]
  untypedPolicy := .opaque_
  bufCap := 131071

/-- FREE VALUE: what a byte of `BUF` that no `BUFWR` has written since the `epoch`-th reset holds (20_memory.md R63,
93_implementation_defined.md U6: `any value`, arbitrary and unchanged until written). Log entry 4, safe. -/
opaque unwrittenByte : (epoch : Nat) → (offset : Nat) → Byte

end Sys2Proof.Config
end

