-- ==== Sys2Proof/Syntax.lean ====
section
/-! DEFINITION. The instructions: one constructor for each mnemonic of spec/opcode_table.json. "Instruction" means a
frame form, an extended-field form, a payload form or a host command (00_scope.md R2; INDEX.md). The table's 59 rows
have 34 mnemonics: a form whose nibble range is not one bit pattern has several rows (30_encoding.md R85; log entry 2). -/

namespace Sys2Proof

inductive Instr
  -- The thirteen frame forms (30_encoding.md R79). Operands: the free nibbles of the header byte.
  /-- `OPT.NN`: delta marker and length marker both literal (41_frame_parse.md R125). -/
  | optNN (dm lm : Nibble)
  /-- `OPT.N1` (41_frame_parse.md R126): the length marker is 13. -/
  | optN1 (dm : Nibble)
  /-- `OPT.N2` (41_frame_parse.md R127): the length marker is 14. -/
  | optN2 (dm : Nibble)
  /-- `OPT.1N` (41_frame_parse.md R128): the delta marker is 13. -/
  | opt1N (lm : Nibble)
  /-- `OPT.11` (41_frame_parse.md R129): header byte `0xDD`. -/
  | opt11
  /-- `OPT.12` (41_frame_parse.md R130): header byte `0xDE`. -/
  | opt12
  /-- `OPT.2N` (41_frame_parse.md R131): the delta marker is 14. -/
  | opt2N (lm : Nibble)
  /-- `OPT.21` (41_frame_parse.md R132): header byte `0xED`. -/
  | opt21
  /-- `OPT.22` (41_frame_parse.md R133): header byte `0xEE`. -/
  | opt22
  /-- `BAD.D15` (41_frame_parse.md R134): delta marker 15, header byte not `PAYLOAD_MARKER`. -/
  | badD15 (lm : Nibble)
  /-- `BAD.L15` (41_frame_parse.md R135): length marker 15, delta marker at most 14. -/
  | badL15 (dm : Nibble)
  /-- `PMARK` (41_frame_parse.md R122): the byte `PAYLOAD_MARKER`. -/
  | pmark
  /-- `EOO` (41_frame_parse.md R121): the empty remainder; no encoding. -/
  | eoo
  -- The four extended-field forms (40_extended_field.md). Operands: the marker where it is free, the position `p`.
  /-- `XDEC.N` (40_extended_field.md R101). -/
  | xdecN (m : Nibble) (p : Nat)
  /-- `XDEC.1` (40_extended_field.md R102). -/
  | xdec1 (p : Nat)
  /-- `XDEC.2` (40_extended_field.md R103). -/
  | xdec2 (p : Nat)
  /-- `XDEC.X` (40_extended_field.md R104). -/
  | xdecX (p : Nat)
  -- The nine payload forms (42_value_decode.md). Operands: what of `numx`, `voff`, `l` the form does not fix.
  /-- `URIPATH` (42_value_decode.md R153). -/
  | uriPath (voff : Nat) (l : Ext)
  /-- `CONTENTFORMAT` (42_value_decode.md R154). -/
  | contentFormat (voff : Nat) (l : Ext)
  /-- `BLOCK2.1` (42_value_decode.md R156): payload of one byte. -/
  | block21 (voff : Nat)
  /-- `BLOCK2.2` (42_value_decode.md R157): payload of two bytes. -/
  | block22 (voff : Nat)
  /-- `BLOCK2.3` (42_value_decode.md R158): payload of three bytes. -/
  | block23 (voff : Nat)
  /-- `BLOCK2.BADLEN` (42_value_decode.md R155): payload of any other length. -/
  | block2BadLen (voff : Nat) (l : Ext)
  /-- `OPAQUE` (42_value_decode.md R159). -/
  | opaqueOpt (num : OptNum) (voff : Nat) (l : Ext)
  /-- `UNTYPED.STRICT` (42_value_decode.md R160). -/
  | untypedStrict (num : OptNum) (voff : Nat) (l : Ext)
  /-- `UNKNOWN` (42_value_decode.md R151). -/
  | unknown (numx : Sum)
  -- The host commands and port operations (43_commands_scanner.md).
  /-- `NOP` (43_commands_scanner.md R182). -/
  | nop
  /-- `START(len_in, prev_in)` (43_commands_scanner.md R185). -/
  | start (lenIn : Nat) (prevIn : OptNum)
  /-- `STEP` (43_commands_scanner.md R186). -/
  | step
  /-- `SCAN` (43_commands_scanner.md R187). -/
  | scan
  /-- `RESET`, the line `rst` (43_commands_scanner.md R181). -/
  | reset
  /-- `BUFWR(a, v)` (43_commands_scanner.md R183). -/
  | bufwr (a : Nat) (v : Byte)
  /-- `BUFRD(a)` (43_commands_scanner.md R184). -/
  | bufrd (a : Nat)
  /-- `REGRD(r)` (43_commands_scanner.md R188). -/
  | regrd (r : Nibble)
  deriving DecidableEq, Repr

end Sys2Proof
end

