-- ==== Sys2Proof/Decode.lean ====
section
/-! DEFINITION. From bits to instructions, and back. The hardware decodes in four places, each with an encoding space of
its own (30_encoding.md R85), so what is decoded is a `Code`: the bytes at the cursor (frame forms), a marker with a
position (extended-field forms), an option number with a payload's place (payload forms), or what the host drives on the
ports (commands). The encoder follows the decoder in this file. -/

namespace Sys2Proof

open Config

/-! ### Bit fields and byte order -/

/-- The option-delta marker, bits 7 to 4 of a header byte (30_encoding.md R71). -/
def deltaMarker (h : Byte) : Nibble := h.extractLsb' 4 4

/-- The option-length marker, bits 3 to 0 of a header byte (30_encoding.md R71). -/
def lengthMarker (h : Byte) : Nibble := h.extractLsb' 0 4

/-- The header byte with these two markers, the delta marker in the high nibble (30_encoding.md R70, R71). -/
def headerByte (dm lm : Nibble) : Byte := dm ++ lm

/-- Two bytes read big-endian, the first the more significant (20_memory.md R54). -/
def be16 (hi lo : Byte) : BitVec 16 := hi ++ lo

/-- Three bytes read big-endian (20_memory.md R55, 42_value_decode.md R158). -/
def be24 (hi mid lo : Byte) : BitVec 24 := (hi ++ mid) ++ lo

/-! ### Marker classes -/

/-- The four classes of a marker (30_encoding.md R72). -/
inductive MarkerClass
  /-- Class `N`: 0 to 12, the value itself. -/
  | literal
  /-- Class `1`: 13, one extension byte follows. -/
  | one
  /-- Class `2`: 14, two extension bytes follow. -/
  | two
  /-- Class `X`: 15, reserved. -/
  | reserved
  deriving DecidableEq, Repr

/-- The class of a marker (30_encoding.md R72). -/
def markerClass (m : Nibble) : MarkerClass :=
  if m.toNat ≤ 12 then .literal
  else if m.toNat = 13 then .one
  else if m.toNat = 14 then .two
  else .reserved

/-- How many extension bytes a class calls for (30_encoding.md R72). -/
def MarkerClass.extBytes : MarkerClass → Nat
  | .literal => 0
  | .one => 1
  | .two => 2
  | .reserved => 0

/-! ### What the decoders read -/

/-- What the host drives on the block's ports in one transaction (30_encoding.md R83): the command port with its two
operand ports, the reset line, or one of the three other ports. -/
inductive HostInput
  /-- The 2-bit command port `cmd`, with what stands on the operand ports `len_in` and `prev_in`. -/
  | cmd (code : BitVec 2) (lenIn : Nat) (prevIn : OptNum)
  /-- The line `rst` asserted. -/
  | rst
  /-- The buffer write port. -/
  | bufWrite (a : Nat) (v : Byte)
  /-- The buffer read port. -/
  | bufRead (a : Nat)
  /-- The register read port. -/
  | regRead (r : Nibble)
  deriving DecidableEq, Repr

/-- One word of one of the four encoding spaces. -/
inductive Code
  /-- The unconsumed bytes at the cursor, lowest offset first; only the first is the form's own (30_encoding.md R79). -/
  | frame (bytes : List Byte)
  /-- A marker and the position of the first byte after what is already consumed (40_extended_field.md R100). -/
  | marker (m : Nibble) (p : Nat)
  /-- The sum `PREV + d`, the payload's offset and its length (42_value_decode.md R150). -/
  | payload (numx : Sum) (voff : Nat) (l : Ext)
  /-- A transaction on the host's ports. -/
  | host (x : HostInput)
  deriving DecidableEq, Repr

/-- Why a code is no instruction: a value that its port or its producer cannot carry (log entry 20). -/
inductive DecodeError
  /-- An offset that does not fit the `CUR_W` bits of its port or register. -/
  | offsetTooWide
  /-- A length above 65804, which no extended field holds (30_encoding.md R74). -/
  | lengthOutOfRange
  /-- A sum above 131339 = 65535 + 65804, which no step forms (41_frame_parse.md R139). -/
  | numberOutOfRange
  deriving DecidableEq, Repr

/-! ### Frame forms -/

/-- The form of a header byte that is not the payload marker, by the classes of its markers (30_encoding.md R79 orders 3 to
5, R76). -/
def headerForm (dm lm : Nibble) : Instr :=
  match markerClass dm, markerClass lm with
  | .reserved, _ => .badD15 lm
  | _, .reserved => .badL15 dm
  | .literal, .literal => .optNN dm lm
  | .literal, .one => .optN1 dm
  | .literal, .two => .optN2 dm
  | .one, .literal => .opt1N lm
  | .one, .one => .opt11
  | .one, .two => .opt12
  | .two, .literal => .opt2N lm
  | .two, .one => .opt21
  | .two, .two => .opt22

/-- The form of a header byte: the payload marker is tested first (30_encoding.md R79 orders 2 to 5). -/
def decodeHeader (P : Params) (h : Byte) : Instr :=
  if h = P.payloadMarker then .pmark else headerForm (deltaMarker h) (lengthMarker h)

/-- The form at the cursor: an empty remainder is `EOO`, else the header byte decides (30_encoding.md R78, R79). -/
def decodeFrame (P : Params) : List Byte → Instr
  | [] => .eoo
  | h :: _ => decodeHeader P h

/-! ### Extended-field forms -/

/-- The extended-field form of a marker (40_extended_field.md R100; 30_encoding.md R72). -/
def decodeMarker (m : Nibble) (p : Nat) : Instr :=
  match markerClass m with
  | .literal => .xdecN m p
  | .one => .xdec1 p
  | .two => .xdec2 p
  | .reserved => .xdecX p

/-! ### Payload forms -/

/-- `numx in REGISTRY`. The sum is compared at its own 18 bits and never reduced modulo 65536, so a sum above 65535 is no
member (42_value_decode.md R151). -/
def registered (P : Params) (numx : Sum) : Bool := P.registry.any fun r => numx == r.setWidth 18

/-- The number has one of the three typed constructors (42_value_decode.md R152). -/
def typedNumber (P : Params) (num : OptNum) : Bool :=
  num == P.numUriPath || num == P.numContentFormat || num == P.numBlock2

/-- The form of a `BLOCK2` payload of length `l` (42_value_decode.md R155). -/
def decodeBlock2 (voff : Nat) (l : Ext) : Instr :=
  if l = 1#17 then .block21 voff
  else if l = 2#17 then .block22 voff
  else if l = 3#17 then .block23 voff
  else .block2BadLen voff l

/-- The payload form that `VDEC` takes, in the order of 42_value_decode.md R150. -/
def decodePayload (P : Params) (numx : Sum) (voff : Nat) (l : Ext) : Instr :=
  let num : OptNum := numx.setWidth 16
  if registered P numx = false then .unknown numx
  else if num = P.numUriPath then .uriPath voff l
  else if num = P.numContentFormat then .contentFormat voff l
  else if num = P.numBlock2 then decodeBlock2 voff l
  else
    match P.untypedPolicy with
    | .opaque_ => .opaqueOpt num voff l
    | .strict => .untypedStrict num voff l

/-! ### Host commands -/

/-- An offset fits the `CUR_W` bits of a port (30_encoding.md R83). -/
def fits (P : Params) (a : Nat) : Bool := decide (a < 2 ^ P.curW)

/-- The command or port operation of a transaction (30_encoding.md R83). -/
def decodeHost (P : Params) : HostInput → Except DecodeError Instr
  | .cmd code lenIn prevIn =>
    if fits P lenIn then
      match code.toNat with
      | 0 => .ok .nop
      | 1 => .ok (.start lenIn prevIn)
      | 2 => .ok .step
      | _ => .ok .scan
    else .error .offsetTooWide
  | .rst => .ok .reset
  | .bufWrite a v => if fits P a then .ok (.bufwr a v) else .error .offsetTooWide
  | .bufRead a => if fits P a then .ok (.bufrd a) else .error .offsetTooWide
  | .regRead r => .ok (.regrd r)

/-! ### The decoder -/

/-- The instruction a code stands for, or why it stands for none. -/
def decode (P : Params) : Code → Except DecodeError Instr
  | .frame bytes => .ok (decodeFrame P bytes)
  | .marker m p => if fits P p then .ok (decodeMarker m p) else .error .offsetTooWide
  | .payload numx voff l =>
    if 131339 < numx.toNat then .error .numberOutOfRange
    else if 65804 < l.toNat then .error .lengthOutOfRange
    else if fits P voff then .ok (decodePayload P numx voff l)
    else .error .offsetTooWide
  | .host x => decodeHost P x

/-! ### The encoder -/

/-- The code of an instruction, written from the layouts of 30_encoding.md R76, R77, R78 (frame forms), R72 (markers), R82
(payloads) and R83 (host). Where a form leaves a part of its code open (the operand ports of a command without operands,
the payload of an unknown number), that part is 0. -/
def encode (P : Params) : Instr → Code
  | .optNN dm lm => .frame [headerByte dm lm]
  | .optN1 dm => .frame [headerByte dm 13#4]
  | .optN2 dm => .frame [headerByte dm 14#4]
  | .opt1N lm => .frame [headerByte 13#4 lm]
  | .opt11 => .frame [0xDD#8]
  | .opt12 => .frame [0xDE#8]
  | .opt2N lm => .frame [headerByte 14#4 lm]
  | .opt21 => .frame [0xED#8]
  | .opt22 => .frame [0xEE#8]
  | .badD15 lm => .frame [headerByte 15#4 lm]
  | .badL15 dm => .frame [headerByte dm 15#4]
  | .pmark => .frame [P.payloadMarker]
  | .eoo => .frame []
  | .xdecN m p => .marker m p
  | .xdec1 p => .marker 13#4 p
  | .xdec2 p => .marker 14#4 p
  | .xdecX p => .marker 15#4 p
  | .uriPath voff l => .payload (P.numUriPath.setWidth 18) voff l
  | .contentFormat voff l => .payload (P.numContentFormat.setWidth 18) voff l
  | .block21 voff => .payload (P.numBlock2.setWidth 18) voff 1#17
  | .block22 voff => .payload (P.numBlock2.setWidth 18) voff 2#17
  | .block23 voff => .payload (P.numBlock2.setWidth 18) voff 3#17
  | .block2BadLen voff l => .payload (P.numBlock2.setWidth 18) voff l
  | .opaqueOpt num voff l => .payload (num.setWidth 18) voff l
  | .untypedStrict num voff l => .payload (num.setWidth 18) voff l
  | .unknown numx => .payload numx 0 0#17
  | .nop => .host (.cmd 0#2 0 0#16)
  | .start lenIn prevIn => .host (.cmd 1#2 lenIn prevIn)
  | .step => .host (.cmd 2#2 0 0#16)
  | .scan => .host (.cmd 3#2 0 0#16)
  | .reset => .host .rst
  | .bufwr a v => .host (.bufWrite a v)
  | .bufrd a => .host (.bufRead a)
  | .regrd r => .host (.regRead r)

/-! ### The opcode table's numbering -/

/-- Byte `k` of an instruction whose bits are `w`: the table's bits `8k+7` to `8k`, the byte at the `k`-th lowest offset. -/
def tableByte (w k : Nat) : Byte := BitVec.ofNat 8 (w >>> (8 * k))

/-- The code of a row of `nbits` bits. Rows of 8 bits and more lie in the frame space; the rows of 2 bits are the command
port's, those of 4 bits markers, and a row of no bits is the empty remainder. Given in whole bytes, the rows of 2 and 4 bits
cannot be told from header bytes and are read as those (log entry 10). -/
def tableCode (nbits w : Nat) : Code :=
  if nbits = 0 then .frame []
  else if nbits = 2 then .host (.cmd (BitVec.ofNat 2 w) 0 0#16)
  else if nbits = 4 then .marker (BitVec.ofNat 4 w) 0
  else .frame [tableByte w 0]

/-- The instruction the decoder reads from a row's bits, under the default parameters. -/
def decodeTableWord (nbits w : Nat) : Option Instr :=
  match decode Params.default (tableCode nbits w) with
  | .ok i => some i
  | .error _ => none

end Sys2Proof
end

