-- ==== Sys2Proof/Machine/State.lean ====
section
/-! DEFINITION. The state of the block as plain data (10_state.md R20), the reasons a transition can stop, and the state
right after reset (10_state.md R39). -/

namespace Sys2Proof.Machine

open Sys2Proof.Config

/-! ### Codes the spec gives names to. The reserved codes are never produced and have no constructor (log entry 16). -/

/-- `PHASE` (10_state.md R26). -/
inductive Phase
  | idle | ready | halt
  deriving DecidableEq, Repr

/-- `KIND` (10_state.md R27). -/
inductive Kind
  | none | option | endOfOptions | payloadMarker | fault
  deriving DecidableEq, Repr

/-- `ERR` (60_exceptions.md R231). The last two belong to the serializer; no step writes them (R237). -/
inductive Err
  | none | truncatedInput | malformedHeader | unknownOption | invalidValue | encodingOverflow | invalidOrdering
  deriving DecidableEq, Repr

/-- `VARIANT` (10_state.md R33). -/
inductive Variant
  | none | uriPath | contentFormat | block2 | opaque_
  deriving DecidableEq, Repr

/-! ### Results -/

/-- What `VDEC` returns: `(variant, cf, bn, bm, bs)` (42_value_decode.md R150). -/
structure Typed where
  variant : Variant
  cfId : BitVec 8
  b2Num : BitVec 20
  b2M : BitVec 1
  b2Szx : BitVec 3
  deriving DecidableEq, Repr

/-- One record of the output stream (10_state.md R37). -/
inductive Record
  | option (num : OptNum) (delta olen : Ext) (voff : Nat) (variant : Variant) (cfId : BitVec 8) (b2Num : BitVec 20)
      (b2M : BitVec 1) (b2Szx : BitVec 3) (cur : Nat)
  | endOfOptions (cur : Nat)
  | payloadMarker (cur : Nat)
  | fault (err : Err) (cur : Nat)
  deriving DecidableEq, Repr

/-- What a read port or a sub-operation last returned. The MODEL's own: the spec says only that the value is returned
(43_commands_scanner.md R184, R188; 40_extended_field.md R100; 42_value_decode.md R150). DESIGN CHOICE, log entry 6, safe. -/
inductive Answer
  /-- Nothing has been returned yet. -/
  | none
  /-- A byte of `BUF`, returned by `BUFRD`. -/
  | byte (v : Byte)
  /-- A register's value, zero-extended to the port, returned by `REGRD`. -/
  | reg (v : Nat)
  /-- The pair `(v, p')` returned by `XDEC`. -/
  | extended (v : Ext) (next : Nat)
  /-- The tuple returned by `VDEC`. -/
  | typed (t : Typed)
  deriving DecidableEq, Repr

/-! ### Memory -/

/-- The written bytes of `BUF`: pairs of offset and byte, offsets strictly rising (`Memory.wf`). An offset that is not
listed has no value of its own: it was not written since reset (20_memory.md R63). Log entry 4. -/
abbrev Memory := List Host.Cell

/-! ### How a transition can stop -/

/-- A stop of the MODEL, not one of the spec's faults: those are next states (60_exceptions.md R240). -/
inductive Fault
  /-- Raised by an extended-field form whose position, or a payload form whose payload, does not lie inside `[0, LEN]`: the
  spec gives the read no meaning there (00_scope.md R10, 40_extended_field.md R100, 42_value_decode.md R150). No step of the
  machine raises it. Safe: the model stops. Log entry 7. -/
  | outsideWindow
  deriving DecidableEq, Repr

/-- The model has no transition for the instruction in this state. -/
inductive Refusal
  /-- Raised by an arm of `exec` whose instruction has no meaning yet. Safe: the model stops. -/
  | notModelled (mnemonic : String)
  /-- Raised by a frame, extended-field or payload form in a state whose cursor, operands or phase do not select it: the
  hardware performs such a form only where it is selected (30_encoding.md R79, R82; 41_frame_parse.md R120). No step of the
  machine raises it. Safe: the model stops. Log entries 7 and 8. -/
  | notSelected
  /-- Raised by `step` when the host drives a value that its port cannot carry (30_encoding.md R83). Safe: the model stops.
  Log entry 20. -/
  | undecodable
  deriving DecidableEq, Repr

/-! ### The state -/

structure State where
  /-- MODEL's own: the parameters (00_scope.md R6), fixed (10_state.md R41). Log entry 1. -/
  cfg : Params
  /-- `BUF` (10_state.md R21). -/
  buf : Memory
  /-- `PHASE` (10_state.md R26). -/
  phase : Phase
  /-- `KIND` (10_state.md R27). -/
  kind : Kind
  /-- `ERR` (10_state.md R28). -/
  err : Err
  /-- `CUR` (10_state.md R23). -/
  cur : Nat
  /-- `LEN` (10_state.md R22). -/
  len : Nat
  /-- `PREV` (10_state.md R25). -/
  prev : OptNum
  /-- `NUM` (10_state.md R29). -/
  num : OptNum
  /-- `DELTA` (10_state.md R30). -/
  delta : Ext
  /-- `OLEN` (10_state.md R31). -/
  olen : Ext
  /-- `VOFF` (10_state.md R32). -/
  voff : Nat
  /-- `VARIANT` (10_state.md R33). -/
  variant : Variant
  /-- `CF_ID` (10_state.md R34). -/
  cfId : BitVec 8
  /-- `B2_NUM` (10_state.md R35). -/
  b2Num : BitVec 20
  /-- `B2_M` (10_state.md R35). -/
  b2M : BitVec 1
  /-- `B2_SZX` (10_state.md R35). -/
  b2Szx : BitVec 3
  /-- `OUT` (10_state.md R37), oldest record first. -/
  out : List Record
  /-- MODEL's own: how many resets the model has seen; only the free value of an unwritten byte reads it. Log entry 5. -/
  epoch : Nat
  /-- MODEL's own: what the host drives from now on, first transaction first (20_memory.md R62). Log entry 3. -/
  inputs : List HostInput
  /-- MODEL's own: what a read port or a sub-operation last returned. Log entry 6. -/
  answer : Answer
  deriving DecidableEq, Repr

/-- The machine right after reset (10_state.md R39): every register 0, no byte of `BUF` written, nothing emitted. The
parameters are the spec's defaults (log entry 1); `epoch`, `inputs` and `answer` are the model's own (log entries 3, 5, 6). -/
def State.reset : State where
  cfg := Params.default
  buf := []
  phase := .idle
  kind := .none
  err := .none
  cur := 0
  len := 0
  prev := 0#16
  num := 0#16
  delta := 0#17
  olen := 0#17
  voff := 0
  variant := .none
  cfId := 0#8
  b2Num := 0#20
  b2M := 0#1
  b2Szx := 0#3
  out := []
  epoch := 0
  inputs := []
  answer := .none

end Sys2Proof.Machine
end

