-- ==== Sys2Proof/Machine/Ops.lean ====
section
/-! DEFINITION. The operations every meaning is written over: the option buffer, the registers a step writes together, the
output stream, fault entry, and what selects a form. -/

namespace Sys2Proof.Machine

open Sys2Proof.Config

/-! ### The option buffer -/

/-- The canonical form of a memory: offsets strictly rising. -/
abbrev Memory.wf (m : Memory) : Prop := m.Pairwise fun x y => x.1 < y.1

/-- The byte written at an offset, if one was. An unlisted offset reads as no value of its own (20_memory.md R63). -/
def Memory.read? : Memory → Nat → Option Byte
  | [], _ => none
  | c :: m, a => if c.1 = a then some c.2 else Memory.read? m a

/-- `BUF[a] <- v` (00_scope.md R10 `MemWrite`), keeping the canonical form. -/
def Memory.write : Memory → Nat → Byte → Memory
  | [], a, v => [(a, v)]
  | c :: m, a, v =>
    if a < c.1 then (a, v) :: c :: m
    else if a = c.1 then (a, v) :: m
    else c :: Memory.write m a v

/-- `BUF[a]`: the last byte written there, or the free value of an unwritten byte (20_memory.md R62, R63). -/
def State.byteAt (s : State) (a : Nat) : Byte :=
  (Memory.read? s.buf a).getD (unwrittenByte s.epoch a)

/-- `BE16(a)` (20_memory.md R54). -/
def State.be16At (s : State) (a : Nat) : BitVec 16 := be16 (s.byteAt a) (s.byteAt (a + 1))

/-- The three bytes at `a`, read big-endian (20_memory.md R55). -/
def State.be24At (s : State) (a : Nat) : BitVec 24 := be24 (s.byteAt a) (s.byteAt (a + 1)) (s.byteAt (a + 2))

/-- `REM`: the number of unconsumed bytes (00_scope.md R10, 10_state.md R24). -/
def State.rem (s : State) : Nat := s.len - s.cur

/-- The `n` bytes of `BUF` from offset `a` on, lowest offset first. -/
def State.slice (s : State) (a n : Nat) : List Byte := (List.range n).map fun k => s.byteAt (a + k)

/-- The remainder: the unconsumed bytes `BUF[CUR .. LEN-1]` (10_state.md R23). -/
def State.remainder (s : State) : List Byte := s.slice s.cur s.rem

/-- `BUF[a] <- v`. -/
def State.writeByte (s : State) (a : Nat) (v : Byte) : State := { s with buf := Memory.write s.buf a v }

/-! ### Registers a step writes together -/

/-- `NUM, DELTA, OLEN, VOFF, VARIANT, CF_ID, B2_NUM, B2_M, B2_SZX <- 0` (41_frame_parse.md R121). -/
def State.clearOption (s : State) : State :=
  { s with
    num := 0#16, delta := 0#17, olen := 0#17, voff := 0, variant := .none, cfId := 0#8, b2Num := 0#20, b2M := 0#1,
    b2Szx := 0#3 }

/-- `emit` (00_scope.md R10): append one record to `OUT`. -/
def State.emit (s : State) (r : Record) : State := { s with out := s.out ++ [r] }

/-- The answer of a read port or a sub-operation. -/
def State.give (s : State) (r : Answer) : State := { s with answer := r }

/-- The host's first transaction is taken; the rest stays to come. -/
def State.dropInput (s : State) (rest : List HostInput) : State := { s with inputs := rest }

/-! ### Taking a fault, and leaving it -/

/-- Fault entry, `raise <Fault>` (60_exceptions.md R240): `KIND`, `ERR`, `PHASE` written, the option registers cleared, one
record emitted; `CUR`, `PREV`, `LEN` and `BUF` are not written. -/
def faultEntry (e : Err) (s : State) : State :=
  ({ s.clearOption with kind := .fault, err := e, phase := .halt }).emit (.fault e s.cur)

/-- Every register at its reset value (10_state.md R39); `BUF` unspecified again (93_implementation_defined.md U13): no byte
written in the new epoch. `OUT` keeps what was emitted. With `START` the only way out of a fault (60_exceptions.md R242). -/
def resetRegisters (s : State) : State :=
  { s.clearOption with
    buf := [], phase := .idle, kind := .none, err := .none, cur := 0, len := 0, prev := 0#16, epoch := s.epoch + 1 }

/-- The writes of an accepted `START` (43_commands_scanner.md R185): a new scan at offset 0. The other way out of a fault
(60_exceptions.md R242). -/
def startScan (lenIn : Nat) (prevIn : OptNum) (s : State) : State :=
  { s.clearOption with len := lenIn, cur := 0, prev := prevIn, phase := .ready, kind := .none, err := .none }

/-! ### Selection -/

/-- The first byte of the remainder, if there is one: all a frame form is selected by (30_encoding.md R79). -/
def State.headBytes (s : State) : List Byte := if s.rem = 0 then [] else [s.byteAt s.cur]

/-- The frame form that stands at the cursor (30_encoding.md R79). -/
def State.frameAt (s : State) : Instr := decodeFrame s.cfg s.headBytes

/-- A frame form acts only in phase `READY` and only where it stands at the cursor (41_frame_parse.md R120). -/
def runFrame (i : Instr) (s : State) (t : State) : Host.Outcome State Fault Refusal :=
  if s.phase = .ready ∧ s.frameAt = i then .next t else .refused .notSelected

/-- The outcome of a sub-operation of a step: what it returns, or fault entry (00_scope.md R10 `raise`). -/
def subResult {α : Type} (f : α → Answer) (r : Except Err α) (s : State) : State :=
  match r with
  | .ok v => s.give (f v)
  | .error e => faultEntry e s

/-- An extended-field form acts only inside a step, on a position inside the window, and on a marker of its class
(40_extended_field.md R100). -/
def runExtended (i : Instr) (m : Nibble) (p : Nat) (r : Except Err (Ext × Nat)) (s : State) :
    Host.Outcome State Fault Refusal :=
  if s.phase = .ready ∧ decodeMarker m p = i then
    if p ≤ s.len then .next (subResult (fun x => .extended x.1 x.2) r s) else .fault .outsideWindow
  else .refused .notSelected

/-- A payload form acts only inside a step, on a payload inside the window, and on the number and length that select it
(42_value_decode.md R150). -/
def runPayload (i : Instr) (numx : Sum) (voff : Nat) (l : Ext) (r : Except Err Typed) (s : State) :
    Host.Outcome State Fault Refusal :=
  if s.phase = .ready ∧ decodePayload s.cfg numx voff l = i then
    if voff + l.toNat ≤ s.len then .next (subResult .typed r s) else .fault .outsideWindow
  else .refused .notSelected

end Sys2Proof.Machine
end

