-- ==== Sys2Proof/Machine/Flags.lean ====
section
/-! DEFINITION. The status of the block as the host sees it: the numeric codes of `PHASE`, `KIND`, `ERR` and `VARIANT`, the
output lines `halt` and `fault`, and the register port's view of every register. The block has no arithmetic flags
(10_state.md R20). -/

namespace Sys2Proof.Machine

/-- The code of `PHASE` (10_state.md R26). -/
def Phase.code : Phase → Nat
  | .idle => 0
  | .ready => 1
  | .halt => 2

/-- The code of `KIND` (10_state.md R27). -/
def Kind.code : Kind → Nat
  | .none => 0
  | .option => 1
  | .endOfOptions => 2
  | .payloadMarker => 3
  | .fault => 4

/-- The code of `ERR` (60_exceptions.md R231). -/
def Err.code : Err → Nat
  | .none => 0
  | .truncatedInput => 1
  | .malformedHeader => 2
  | .unknownOption => 3
  | .invalidValue => 4
  | .encodingOverflow => 5
  | .invalidOrdering => 6

/-- The code of `VARIANT` (10_state.md R33). -/
def Variant.code : Variant → Nat
  | .none => 0
  | .uriPath => 1
  | .contentFormat => 2
  | .block2 => 3
  | .opaque_ => 4

/-- The line `halt` (10_state.md R36). -/
def State.haltLine (s : State) : Bool := s.phase == .halt

/-- The line `fault` (10_state.md R36). -/
def State.faultLine (s : State) : Bool := s.kind == .fault

/-- The register numbered `r`, zero-extended; number 15 is not in the table and reads 0 (10_state.md R38). -/
def State.regValue (s : State) (r : Nibble) : Nat :=
  match r.toNat with
  | 0 => s.phase.code
  | 1 => s.kind.code
  | 2 => s.err.code
  | 3 => s.cur
  | 4 => s.len
  | 5 => s.prev.toNat
  | 6 => s.num.toNat
  | 7 => s.delta.toNat
  | 8 => s.olen.toNat
  | 9 => s.voff
  | 10 => s.variant.code
  | 11 => s.cfId.toNat
  | 12 => s.b2Num.toNat
  | 13 => s.b2M.toNat
  | 14 => s.b2Szx.toNat
  | _ => 0

end Sys2Proof.Machine
end

