-- ==== Sys2Proof/Machine/Operands.lean ====
section
/-! DEFINITION. The extended-field decoder `XDEC` (40_extended_field.md): the one operand form of a frame, used alike for the
option-delta and the option-length. Bounds are tested before bytes are read (20_memory.md R57). -/

namespace Sys2Proof.Machine

/-- `XDEC.N`: the marker is the value; no byte is read (40_extended_field.md R101). -/
def xdecN (m : Nibble) (p : Nat) : Except Err (Ext × Nat) := .ok (m.setWidth 17, p)

/-- `XDEC.1`: one extension byte, plus 13 (40_extended_field.md R102). -/
def xdec1 (s : State) (p : Nat) : Except Err (Ext × Nat) :=
  if s.len - p < 1 then .error .truncatedInput
  else .ok ((s.byteAt p).setWidth 17 + 13#17, p + 1)

/-- `XDEC.2`: two extension bytes, big-endian, plus 269 (40_extended_field.md R103). -/
def xdec2 (s : State) (p : Nat) : Except Err (Ext × Nat) :=
  if s.len - p < 2 then .error .truncatedInput
  else .ok ((s.be16At p).setWidth 17 + 269#17, p + 2)

/-- `XDEC.X`: the reserved marker; no byte is read (40_extended_field.md R104). -/
def xdecX : Except Err (Ext × Nat) := .error .malformedHeader

/-- `XDEC(m, p)` (40_extended_field.md R100): the class of the marker first, then the bounds, then the read (R108). -/
def xdec (s : State) (m : Nibble) (p : Nat) : Except Err (Ext × Nat) :=
  match markerClass m with
  | .literal => xdecN m p
  | .one => xdec1 s p
  | .two => xdec2 s p
  | .reserved => xdecX

end Sys2Proof.Machine
end

