-- ==== Sys2Proof/Machine/Payload.lean ====
section
/-! DEFINITION. The registry check and the typed-variant construction `VDEC` (42_value_decode.md), one function for each
payload form, and the meaning of each form as an operation on the state. -/

namespace Sys2Proof.Machine

open Sys2Proof.Config

/-! ### The forms -/

/-- A variant without typed fields (42_value_decode.md R153, R159). -/
def plainVariant (v : Variant) : Typed := ⟨v, 0#8, 0#20, 0#1, 0#3⟩

/-- `UNKNOWN` (42_value_decode.md R151). -/
def vdecUnknown : Except Err Typed := .error .unknownOption

/-- `URIPATH`: no payload byte is read (42_value_decode.md R153). -/
def vdecUriPath : Except Err Typed := .ok (plainVariant .uriPath)

/-- `CONTENTFORMAT`: the length test comes before the value test (42_value_decode.md R154). -/
def vdecContentFormat (s : State) (voff : Nat) (l : Ext) : Except Err Typed :=
  if l ≠ 1#17 then .error .malformedHeader
  else if s.byteAt voff ∈ s.cfg.contentFormats then .ok ⟨.contentFormat, s.byteAt voff, 0#20, 0#1, 0#3⟩
  else .error .invalidValue

/-- The typed fields of a `BLOCK2` payload: `blockNumber`, and the low four bits of the last byte (42_value_decode.md
R155). -/
def block2Typed (blockNumber : BitVec 20) (flags : BitVec 4) : Typed :=
  ⟨.block2, 0#8, blockNumber, flags.extractLsb' 3 1, flags.extractLsb' 0 3⟩

/-- `BLOCK2.1` (42_value_decode.md R156). -/
def vdecBlock21 (s : State) (voff : Nat) : Except Err Typed :=
  let b := s.byteAt voff
  .ok (block2Typed ((b.extractLsb' 4 4).setWidth 20) (b.extractLsb' 0 4))

/-- `BLOCK2.2` (42_value_decode.md R157). -/
def vdecBlock22 (s : State) (voff : Nat) : Except Err Typed :=
  let w := s.be16At voff
  .ok (block2Typed ((w.extractLsb' 4 12).setWidth 20) (w.extractLsb' 0 4))

/-- `BLOCK2.3` (42_value_decode.md R158). -/
def vdecBlock23 (s : State) (voff : Nat) : Except Err Typed :=
  let w := s.be24At voff
  .ok (block2Typed (w.extractLsb' 4 20) (w.extractLsb' 0 4))

/-- `BLOCK2` of any other length (42_value_decode.md R155). -/
def vdecBlock2BadLen : Except Err Typed := .error .malformedHeader

/-- `OPAQUE`: no payload byte is read (42_value_decode.md R159). -/
def vdecOpaque : Except Err Typed := .ok (plainVariant .opaque_)

/-- `UNTYPED.STRICT` (42_value_decode.md R160). -/
def vdecUntypedStrict : Except Err Typed := .error .unknownOption

/-! ### The operation -/

/-- `BLOCK2.l` (42_value_decode.md R155). -/
def vdecBlock2 (s : State) (voff : Nat) (l : Ext) : Except Err Typed :=
  if l = 1#17 then vdecBlock21 s voff
  else if l = 2#17 then vdecBlock22 s voff
  else if l = 3#17 then vdecBlock23 s voff
  else vdecBlock2BadLen

/-- `VDEC(numx, voff, l)` (42_value_decode.md R150). -/
def vdec (s : State) (numx : Sum) (voff : Nat) (l : Ext) : Except Err Typed :=
  let num : OptNum := numx.setWidth 16
  if registered s.cfg numx = false then vdecUnknown
  else if num = s.cfg.numUriPath then vdecUriPath
  else if num = s.cfg.numContentFormat then vdecContentFormat s voff l
  else if num = s.cfg.numBlock2 then vdecBlock2 s voff l
  else
    match s.cfg.untypedPolicy with
    | .opaque_ => vdecOpaque
    | .strict => vdecUntypedStrict

/-! ### Meanings -/

/-- `URIPATH` (42_value_decode.md R153). -/
def execUriPath (voff : Nat) (l : Ext) (s : State) : Host.Outcome State Fault Refusal :=
  runPayload (.uriPath voff l) (s.cfg.numUriPath.setWidth 18) voff l vdecUriPath s

/-- `CONTENTFORMAT` (42_value_decode.md R154). -/
def execContentFormat (voff : Nat) (l : Ext) (s : State) : Host.Outcome State Fault Refusal :=
  runPayload (.contentFormat voff l) (s.cfg.numContentFormat.setWidth 18) voff l (vdecContentFormat s voff l) s

/-- `BLOCK2.1` (42_value_decode.md R156). -/
def execBlock21 (voff : Nat) (s : State) : Host.Outcome State Fault Refusal :=
  runPayload (.block21 voff) (s.cfg.numBlock2.setWidth 18) voff 1#17 (vdecBlock21 s voff) s

/-- `BLOCK2.2` (42_value_decode.md R157). -/
def execBlock22 (voff : Nat) (s : State) : Host.Outcome State Fault Refusal :=
  runPayload (.block22 voff) (s.cfg.numBlock2.setWidth 18) voff 2#17 (vdecBlock22 s voff) s

/-- `BLOCK2.3` (42_value_decode.md R158). -/
def execBlock23 (voff : Nat) (s : State) : Host.Outcome State Fault Refusal :=
  runPayload (.block23 voff) (s.cfg.numBlock2.setWidth 18) voff 3#17 (vdecBlock23 s voff) s

/-- `BLOCK2.BADLEN` (42_value_decode.md R155). -/
def execBlock2BadLen (voff : Nat) (l : Ext) (s : State) : Host.Outcome State Fault Refusal :=
  runPayload (.block2BadLen voff l) (s.cfg.numBlock2.setWidth 18) voff l vdecBlock2BadLen s

/-- `OPAQUE` (42_value_decode.md R159). -/
def execOpaqueOpt (num : OptNum) (voff : Nat) (l : Ext) (s : State) : Host.Outcome State Fault Refusal :=
  runPayload (.opaqueOpt num voff l) (num.setWidth 18) voff l vdecOpaque s

/-- `UNTYPED.STRICT` (42_value_decode.md R160). -/
def execUntypedStrict (num : OptNum) (voff : Nat) (l : Ext) (s : State) : Host.Outcome State Fault Refusal :=
  runPayload (.untypedStrict num voff l) (num.setWidth 18) voff l vdecUntypedStrict s

/-- `UNKNOWN` (42_value_decode.md R151): the payload's place plays no part. -/
def execUnknown (numx : Sum) (s : State) : Host.Outcome State Fault Refusal :=
  runPayload (.unknown numx) numx 0 0#17 vdecUnknown s

end Sys2Proof.Machine
end

