-- ==== Sys2Proof/Machine/Frame.lean ====
section
/-! DEFINITION. One step of the frame parser (41_frame_parse.md): the step as a whole (R120), and the meaning of each of the
thirteen frame forms (R121 to R135). -/

namespace Sys2Proof.Machine

open Sys2Proof.Config

/-! ### The parts of a step -/

/-- `numx = PREV + d`, an 18-bit sum that never wraps (10_state.md R29, 41_frame_parse.md R139). -/
def State.numx (s : State) (d : Ext) : Sum := s.prev.setWidth 18 + d.setWidth 18

/-- The commit of an option (41_frame_parse.md R123). -/
def commit (d l : Ext) (voff : Nat) (t : Typed) (s : State) : State :=
  let num : OptNum := (s.numx d).setWidth 16
  let cur := voff + l.toNat
  ({ s with
      kind := .option, err := .none, num := num, delta := d, olen := l, voff := voff, variant := t.variant, cfId := t.cfId,
      b2Num := t.b2Num, b2M := t.b2M, b2Szx := t.b2Szx, prev := num, cur := cur }).emit
    (.option num d l voff t.variant t.cfId t.b2Num t.b2M t.b2Szx cur)

/-- The part of a step after both extended fields: payload bounds, number, `VDEC`, commit (41_frame_parse.md R120, source
steps 6 to 10). -/
def finishOption (d l : Ext) (p2 : Nat) (s : State) : State :=
  if s.len - p2 < l.toNat then faultEntry .truncatedInput s
  else
    match vdec s (s.numx d) p2 l with
    | .error e => faultEntry e s
    | .ok t => commit d l p2 t s

/-- The part of a step after the header byte: the delta's extended field from `CUR + 1`, the length's from where the delta's
ended (41_frame_parse.md R120, source steps 4 to 10; 40_extended_field.md R105). The two arguments say how each is decoded. -/
def optionFrame (delta length : Nat → Except Err (Ext × Nat)) (s : State) : State :=
  match delta (s.cur + 1) with
  | .error e => faultEntry e s
  | .ok (d, p1) =>
    match length p1 with
    | .error e => faultEntry e s
    | .ok (l, p2) => finishOption d l p2 s

/-- `EOO` (41_frame_parse.md R121). -/
def endOfOptions (s : State) : State :=
  ({ s.clearOption with kind := .endOfOptions, err := .none, phase := .halt }).emit (.endOfOptions s.cur)

/-- `PMARK` (41_frame_parse.md R122). -/
def payloadMarker (s : State) : State :=
  ({ s.clearOption with kind := .payloadMarker, err := .none, phase := .halt, cur := s.cur + 1 }).emit
    (.payloadMarker (s.cur + 1))

/-- The step (41_frame_parse.md R120), its tests in exactly the order given there. -/
def frameStep (s : State) : State :=
  if s.rem = 0 then endOfOptions s
  else
    let h := s.byteAt s.cur
    if h = s.cfg.payloadMarker then payloadMarker s
    else optionFrame (xdec s (deltaMarker h)) (xdec s (lengthMarker h)) s

/-! ### Meanings of the frame forms -/

/-- `OPT.NN` (41_frame_parse.md R125). -/
def execOptNN (dm lm : Nibble) (s : State) : Host.Outcome State Fault Refusal :=
  runFrame (.optNN dm lm) s (optionFrame (xdecN dm) (xdecN lm) s)

/-- `OPT.N1` (41_frame_parse.md R126). -/
def execOptN1 (dm : Nibble) (s : State) : Host.Outcome State Fault Refusal :=
  runFrame (.optN1 dm) s (optionFrame (xdecN dm) (xdec1 s) s)

/-- `OPT.N2` (41_frame_parse.md R127). -/
def execOptN2 (dm : Nibble) (s : State) : Host.Outcome State Fault Refusal :=
  runFrame (.optN2 dm) s (optionFrame (xdecN dm) (xdec2 s) s)

/-- `OPT.1N` (41_frame_parse.md R128). -/
def execOpt1N (lm : Nibble) (s : State) : Host.Outcome State Fault Refusal :=
  runFrame (.opt1N lm) s (optionFrame (xdec1 s) (xdecN lm) s)

/-- `OPT.11` (41_frame_parse.md R129). -/
def execOpt11 (s : State) : Host.Outcome State Fault Refusal :=
  runFrame .opt11 s (optionFrame (xdec1 s) (xdec1 s) s)

/-- `OPT.12` (41_frame_parse.md R130). -/
def execOpt12 (s : State) : Host.Outcome State Fault Refusal :=
  runFrame .opt12 s (optionFrame (xdec1 s) (xdec2 s) s)

/-- `OPT.2N` (41_frame_parse.md R131). -/
def execOpt2N (lm : Nibble) (s : State) : Host.Outcome State Fault Refusal :=
  runFrame (.opt2N lm) s (optionFrame (xdec2 s) (xdecN lm) s)

/-- `OPT.21` (41_frame_parse.md R132). -/
def execOpt21 (s : State) : Host.Outcome State Fault Refusal :=
  runFrame .opt21 s (optionFrame (xdec2 s) (xdec1 s) s)

/-- `OPT.22` (41_frame_parse.md R133). -/
def execOpt22 (s : State) : Host.Outcome State Fault Refusal :=
  runFrame .opt22 s (optionFrame (xdec2 s) (xdec2 s) s)

/-- `BAD.D15`: the fault is the same whatever the length marker is and whatever follows (41_frame_parse.md R134). -/
def execBadD15 (lm : Nibble) (s : State) : Host.Outcome State Fault Refusal :=
  runFrame (.badD15 lm) s (faultEntry .malformedHeader s)

/-- `BAD.L15`: the delta is decoded first and may be truncated; then the reserved length marker faults (41_frame_parse.md
R135). -/
def execBadL15 (dm : Nibble) (s : State) : Host.Outcome State Fault Refusal :=
  runFrame (.badL15 dm) s (optionFrame (xdec s dm) (fun _ => xdecX) s)

/-- `PMARK` (41_frame_parse.md R122). -/
def execPmark (s : State) : Host.Outcome State Fault Refusal := runFrame .pmark s (payloadMarker s)

/-- `EOO` (41_frame_parse.md R121). -/
def execEoo (s : State) : Host.Outcome State Fault Refusal := runFrame .eoo s (endOfOptions s)

end Sys2Proof.Machine
end

