-- ==== Sys2Proof/Machine/Command.lean ====
section
/-! DEFINITION. The host commands, the port operations and the buffer scanner (43_commands_scanner.md). Each is one atomic
transition (R180) and none of them stops: a command the hardware does not accept changes nothing (60_exceptions.md R244). -/

namespace Sys2Proof.Machine

/-- `while PHASE == READY: execute one step`, at most `n` steps (43_commands_scanner.md R187). -/
def scanSteps : Nat → State → State
  | 0, s => s
  | n + 1, s => if s.phase = .ready then scanSteps n (frameStep s) else s

/-- `NOP` (43_commands_scanner.md R182). -/
def execNop (s : State) : Host.Outcome State Fault Refusal := .next s

/-- `START(len_in, prev_in)` (43_commands_scanner.md R185). -/
def execStart (lenIn : Nat) (prevIn : OptNum) (s : State) : Host.Outcome State Fault Refusal :=
  if lenIn ≤ s.cfg.bufCap then .next (startScan lenIn prevIn s) else .next s

/-- `STEP` (43_commands_scanner.md R186). -/
def execStep (s : State) : Host.Outcome State Fault Refusal :=
  if s.phase = .ready then .next (frameStep s) else .next s

/-- `SCAN` (43_commands_scanner.md R187): `LEN - CUR + 1` steps are always enough. -/
def execScan (s : State) : Host.Outcome State Fault Refusal := .next (scanSteps (s.rem + 1) s)

/-- `RESET` (43_commands_scanner.md R181). -/
def execReset (s : State) : Host.Outcome State Fault Refusal := .next (resetRegisters s)

/-- `BUFWR(a, v)` (43_commands_scanner.md R183). -/
def execBufwr (a : Nat) (v : Byte) (s : State) : Host.Outcome State Fault Refusal :=
  if s.phase ≠ .ready ∧ a < s.cfg.bufCap then .next (s.writeByte a v) else .next s

/-- `BUFRD(a)` (43_commands_scanner.md R184). -/
def execBufrd (a : Nat) (s : State) : Host.Outcome State Fault Refusal :=
  .next (s.give (.byte (if a < s.cfg.bufCap then s.byteAt a else 0#8)))

/-- `REGRD(r)` (43_commands_scanner.md R188). -/
def execRegrd (r : Nibble) (s : State) : Host.Outcome State Fault Refusal := .next (s.give (.reg (s.regValue r)))

end Sys2Proof.Machine
end

