-- ==== Sys2Proof/Machine/Extended.lean ====
section
/-! DEFINITION. The four extended-field forms as operations on the state: the decoded pair is returned, or the frame being
parsed is abandoned through fault entry (40_extended_field.md R100 to R104). -/

namespace Sys2Proof.Machine

/-- `XDEC.N` (40_extended_field.md R101). -/
def execXdecN (m : Nibble) (p : Nat) (s : State) : Host.Outcome State Fault Refusal :=
  runExtended (.xdecN m p) m p (xdecN m p) s

/-- `XDEC.1` (40_extended_field.md R102). -/
def execXdec1 (p : Nat) (s : State) : Host.Outcome State Fault Refusal :=
  runExtended (.xdec1 p) 13#4 p (xdec1 s p) s

/-- `XDEC.2` (40_extended_field.md R103). -/
def execXdec2 (p : Nat) (s : State) : Host.Outcome State Fault Refusal :=
  runExtended (.xdec2 p) 14#4 p (xdec2 s p) s

/-- `XDEC.X` (40_extended_field.md R104). -/
def execXdecX (p : Nat) (s : State) : Host.Outcome State Fault Refusal :=
  runExtended (.xdecX p) 15#4 p xdecX s

end Sys2Proof.Machine
end

