-- ==== Sys2Proof/Machine/Dispatch.lean ====
section
/-! DEFINITION. The meaning of every instruction: one arm, one call. -/

namespace Sys2Proof.Machine

open Sys2Proof

def exec (i : Instr) (s : State) : Host.Outcome State Fault Refusal :=
  match i with
  -- frame forms (41_frame_parse.md)
  | .optNN dm lm => Sys2Proof.Machine.execOptNN dm lm s
  | .optN1 dm => Sys2Proof.Machine.execOptN1 dm s
  | .optN2 dm => Sys2Proof.Machine.execOptN2 dm s
  | .opt1N lm => Sys2Proof.Machine.execOpt1N lm s
  | .opt11 => Sys2Proof.Machine.execOpt11 s
  | .opt12 => Sys2Proof.Machine.execOpt12 s
  | .opt2N lm => Sys2Proof.Machine.execOpt2N lm s
  | .opt21 => Sys2Proof.Machine.execOpt21 s
  | .opt22 => Sys2Proof.Machine.execOpt22 s
  | .badD15 lm => Sys2Proof.Machine.execBadD15 lm s
  | .badL15 dm => Sys2Proof.Machine.execBadL15 dm s
  | .pmark => Sys2Proof.Machine.execPmark s
  | .eoo => Sys2Proof.Machine.execEoo s
  -- extended-field forms (40_extended_field.md)
  | .xdecN m p => Sys2Proof.Machine.execXdecN m p s
  | .xdec1 p => Sys2Proof.Machine.execXdec1 p s
  | .xdec2 p => Sys2Proof.Machine.execXdec2 p s
  | .xdecX p => Sys2Proof.Machine.execXdecX p s
  -- payload forms (42_value_decode.md)
  | .uriPath voff l => Sys2Proof.Machine.execUriPath voff l s
  | .contentFormat voff l => Sys2Proof.Machine.execContentFormat voff l s
  | .block21 voff => Sys2Proof.Machine.execBlock21 voff s
  | .block22 voff => Sys2Proof.Machine.execBlock22 voff s
  | .block23 voff => Sys2Proof.Machine.execBlock23 voff s
  | .block2BadLen voff l => Sys2Proof.Machine.execBlock2BadLen voff l s
  | .opaqueOpt num voff l => Sys2Proof.Machine.execOpaqueOpt num voff l s
  | .untypedStrict num voff l => Sys2Proof.Machine.execUntypedStrict num voff l s
  | .unknown numx => Sys2Proof.Machine.execUnknown numx s
  -- host commands and port operations (43_commands_scanner.md)
  | .nop => Sys2Proof.Machine.execNop s
  | .start lenIn prevIn => Sys2Proof.Machine.execStart lenIn prevIn s
  | .step => Sys2Proof.Machine.execStep s
  | .scan => Sys2Proof.Machine.execScan s
  | .reset => Sys2Proof.Machine.execReset s
  | .bufwr a v => Sys2Proof.Machine.execBufwr a v s
  | .bufrd a => Sys2Proof.Machine.execBufrd a s
  | .regrd r => Sys2Proof.Machine.execRegrd r s

end Sys2Proof.Machine
end

