-- ==== Sys2Proof/Machine/Fetch.lean ====
section
/-! DEFINITION. What the machine's step fetches: the host's transaction on the ports, and under `STEP` the frame form at the
cursor; and how a word of the opcode table is placed where it is fetched. -/

namespace Sys2Proof.Machine

/-- The command of a transaction (30_encoding.md R83). -/
def decodeInput (s : State) (x : HostInput) : Except DecodeError Instr := decode s.cfg (.host x)

/-- The bytes of the word `w` at `CUR`, `CUR + 1`, … up to `n` of them, those outside the buffer left out; every byte the
word does not reach is 0. Written from the highest offset down. -/
def placeBytes (s : State) (w : Nat) : Nat → State
  | 0 => s
  | n + 1 =>
    let t := if s.cur + n < s.cfg.bufCap then s.writeByte (s.cur + n) (tableByte w n) else s
    placeBytes t w n

/-- The longest frame whose extension bytes are 0: header byte, two extensions of two bytes, payload of 269
(30_encoding.md R70, R73). -/
def zeroFrameBytes : Nat := 274

/-- How many bytes of a frame a step reads: header byte, two extensions of two bytes, three payload bytes
(70_reset_and_hazards.md R268). -/
def readBytes : Nat := 8

/-- A word of the opcode table placed so that the next `step` fetches it. A row of no bits (`EOO`) is the empty remainder; a
row of 2 bits is the host's next command; any other word is a frame at the cursor under `STEP` in phase `READY`, every
further byte a step reads 0, and `LEN` far enough that the frame is complete. A marker (4 bits) is placed as the delta marker
of a header byte. Log entry 10. -/
def placeWord (s : State) (nbits w : Nat) : State :=
  if nbits = 0 then
    { s with phase := .ready, len := s.cur, inputs := [.cmd 2#2 0 0#16] }
  else if nbits = 2 then
    { s with inputs := [.cmd (BitVec.ofNat 2 w) 0 0#16] }
  else
    let header := if nbits = 4 then w <<< 4 else w
    { placeBytes s header readBytes with
      phase := .ready, len := min (s.cur + zeroFrameBytes) s.cfg.bufCap, inputs := [.cmd 2#2 0 0#16] }

end Sys2Proof.Machine
end

