-- ==== Sys2Proof/Machine/Step.lean ====
section
/-! DEFINITION. One step of the machine: the host's next transaction is taken from the ports, decoded and executed. With
nothing driven, nothing happens (70_reset_and_hazards.md R261). -/

namespace Sys2Proof.Machine

def step (s : State) : Host.Outcome State Fault Refusal :=
  match s.inputs with
  | [] => .next s
  | x :: rest =>
    match decodeInput s x with
    | .ok i => exec i (s.dropInput rest)
    | .error _ => .refused .undecodable

/-- A word of the opcode table placed so that the very next `step` runs it (log entries 10 and 11). -/
def State.withFetchWord (s : State) (nbits w : Nat) : State := placeWord s nbits w

end Sys2Proof.Machine
end

