-- ==== Sys2Proof/Machine/Reference.lean ====
section
/-! DEFINITION. Functions beside the machine, over byte lists and natural numbers; no instruction calls them. The source's
`parseOne` (41_frame_parse.md R120, R138; 43_commands_scanner.md R192), which the step is held against, and the reference
encoder (44_reference_encoder.md), which the round trips are stated through (R210: nothing here adds to the hardware). -/

namespace Sys2Proof.Reference

open Sys2Proof.Config
open Sys2Proof.Machine (Err Typed Variant)

/-! ### `decodeExtended`, `parseOne` -/

/-- `decodeExtended(marker, cursor)`: the value and the rest of the byte stream (40_extended_field.md R100). -/
def decodeExtended (m : Nat) (cursor : List Byte) : Except Err (Nat × List Byte) :=
  if m ≤ 12 then .ok (m, cursor)
  else if m = 13 then
    match cursor with
    | e :: rest => .ok (e.toNat + 13, rest)
    | [] => .error .truncatedInput
  else if m = 14 then
    match cursor with
    | hi :: lo :: rest => .ok (hi.toNat * 256 + lo.toNat + 269, rest)
    | _ => .error .truncatedInput
  else .error .malformedHeader

/-- The typed fields of a `Block2` payload that is the number `w` (42_value_decode.md R155). -/
def block2Fields (w : Nat) : Typed :=
  ⟨.block2, 0#8, BitVec.ofNat 20 (w / 16), BitVec.ofNat 1 (w / 8 % 2), BitVec.ofNat 3 (w % 8)⟩

/-- The number is in `REGISTRY` (42_value_decode.md R151). -/
def known (P : Params) (number : Nat) : Bool := P.registry.any fun r => r.toNat == number

/-- The registry check and the typed variant of a number and a payload (source steps 9 and 10; 42_value_decode.md R150 to
R160). -/
def construct (P : Params) (number : Nat) (payload : List Byte) : Except Err Typed :=
  if known P number = false then .error .unknownOption
  else if number = P.numUriPath.toNat then .ok ⟨.uriPath, 0#8, 0#20, 0#1, 0#3⟩
  else if number = P.numContentFormat.toNat then
    match payload with
    | [f] => if f ∈ P.contentFormats then .ok ⟨.contentFormat, f, 0#20, 0#1, 0#3⟩ else .error .invalidValue
    | _ => .error .malformedHeader
  else if number = P.numBlock2.toNat then
    match payload with
    | [a] => .ok (block2Fields a.toNat)
    | [a, b] => .ok (block2Fields (a.toNat * 256 + b.toNat))
    | [a, b, c] => .ok (block2Fields (a.toNat * 65536 + b.toNat * 256 + c.toNat))
    | _ => .error .malformedHeader
  else
    match P.untypedPolicy with
    | .opaque_ => .ok ⟨.opaque_, 0#8, 0#20, 0#1, 0#3⟩
    | .strict => .error .unknownOption

/-- What `parseOne` returns: an option with the remainder, a sentinel with the remainder, or a typed failure. -/
inductive ParseResult
  | option (number delta : Nat) (payload : List Byte) (typed : Typed) (remainder : List Byte)
  | endOfOptions
  | payloadMarker (remainder : List Byte)
  | failure (e : Err)
  deriving DecidableEq, Repr

/-- Source steps 6 to 10 (41_frame_parse.md R120). -/
def parsePayload (P : Params) (prev delta length : Nat) (rest : List Byte) : ParseResult :=
  if rest.length < length then .failure .truncatedInput
  else
    match construct P (prev + delta) (rest.take length) with
    | .error e => .failure e
    | .ok typed => .option (prev + delta) delta (rest.take length) typed (rest.drop length)

/-- `parseOne(buffer, previousOptionNumber)`, the source's ten steps in order (41_frame_parse.md R120). -/
def parseOne (P : Params) (buffer : List Byte) (prev : Nat) : ParseResult :=
  match buffer with
  | [] => .endOfOptions
  | h :: rest =>
    if h = P.payloadMarker then .payloadMarker rest
    else
      match decodeExtended (h.toNat / 16) rest with
      | .error e => .failure e
      | .ok (delta, rest) =>
        match decodeExtended (h.toNat % 16) rest with
        | .error e => .failure e
        | .ok (length, rest) => parsePayload P prev delta length rest

/-! ### The reference encoder -/

/-- `encodeExtended(v)`: the marker and its extension bytes (44_reference_encoder.md R211). -/
def encodeExtended (v : Nat) : Except Err (Nat × List Byte) :=
  if v ≤ 12 then .ok (v, [])
  else if v ≤ 268 then .ok (13, [BitVec.ofNat 8 (v - 13)])
  else if v ≤ 65804 then .ok (14, [BitVec.ofNat 8 ((v - 269) / 256), BitVec.ofNat 8 ((v - 269) % 256)])
  else .error .encodingOverflow

/-- `serialize(option, previousOptionNumber)` of an option given by number and payload (44_reference_encoder.md R212). -/
def serialize (number prev : Nat) (payload : List Byte) : Except Err (List Byte) :=
  if number < prev then .error .invalidOrdering
  else
    match encodeExtended (number - prev) with
    | .error e => .error e
    | .ok (dm, dext) =>
      match encodeExtended payload.length with
      | .error e => .error e
      | .ok (lm, lext) => .ok (BitVec.ofNat 8 (dm * 16 + lm) :: (dext ++ lext ++ payload))

/-- Options serialized in order, each against the number of the one before (44_reference_encoder.md R212, R218). -/
def serializeAll (prev : Nat) : List (Nat × List Byte) → Except Err (List Byte)
  | [] => .ok []
  | o :: rest =>
    match serialize o.1 prev o.2 with
    | .error e => .error e
    | .ok frame =>
      match serializeAll o.1 rest with
      | .error e => .error e
      | .ok frames => .ok (frame ++ frames)

/-- `UriPath(segment).getPayloadBytes()` (44_reference_encoder.md R213). -/
def uriPathPayload (segment : List Byte) : List Byte := segment

/-- `ContentFormat(formatId).getPayloadBytes()`; an identifier outside the set cannot be constructed
(44_reference_encoder.md R213). -/
def contentFormatPayload (P : Params) (formatId : Byte) : Except Err (List Byte) :=
  if formatId ∈ P.contentFormats then .ok [formatId] else .error .invalidValue

/-- `Block2.fromFields(n, m, s).getPayloadBytes()`: the shortest payload that holds the block number
(44_reference_encoder.md R214). -/
def block2Payload (n : BitVec 20) (m : BitVec 1) (s : BitVec 3) : List Byte :=
  let w := n.toNat * 16 + m.toNat * 8 + s.toNat
  if n.toNat ≤ 15 then [BitVec.ofNat 8 w]
  else if n.toNat ≤ 4095 then [BitVec.ofNat 8 (w / 256), BitVec.ofNat 8 (w % 256)]
  else [BitVec.ofNat 8 (w / 65536), BitVec.ofNat 8 (w / 256 % 256), BitVec.ofNat 8 (w % 256)]

/-- `Opaque(number, payload).getPayloadBytes()` (44_reference_encoder.md R215). -/
def opaquePayload (payload : List Byte) : List Byte := payload

end Sys2Proof.Reference
end

