-- ==== Sys2Proof/WellFormed.lean ====
section
/-! DEFINITION. Which instructions exist under given parameters: those some code of the spec stands for. Every operand is
at a value its encoding admits, and no header byte equals `PAYLOAD_MARKER` (30_encoding.md R79, R80). -/

namespace Sys2Proof

open Config

/-- A literal marker, class `N` (30_encoding.md R72). -/
def literalMarker (m : Nibble) : Bool := markerClass m == .literal

/-- A header byte that is not the payload marker: only those are option headers (30_encoding.md R79 order 2). -/
def optionHeader (P : Params) (dm lm : Nibble) : Bool := headerByte dm lm != P.payloadMarker

/-- A payload's place and length: an offset that fits, a length an extended field holds (30_encoding.md R73, R83). -/
def payloadPlace (P : Params) (voff : Nat) (l : Ext) : Bool := fits P voff && decide (l.toNat ≤ 65804)

/-- A registered number without a typed constructor (42_value_decode.md R152). -/
def untypedNumber (P : Params) (num : OptNum) : Bool :=
  registered P (num.setWidth 18) && !typedNumber P num

/-- The instruction exists under the parameters. -/
def Instr.wf (P : Params) : Instr → Bool
  | .optNN dm lm => literalMarker dm && literalMarker lm && optionHeader P dm lm
  | .optN1 dm => literalMarker dm && optionHeader P dm 13#4
  | .optN2 dm => literalMarker dm && optionHeader P dm 14#4
  | .opt1N lm => literalMarker lm && optionHeader P 13#4 lm
  | .opt11 => optionHeader P 13#4 13#4
  | .opt12 => optionHeader P 13#4 14#4
  | .opt2N lm => literalMarker lm && optionHeader P 14#4 lm
  | .opt21 => optionHeader P 14#4 13#4
  | .opt22 => optionHeader P 14#4 14#4
  | .badD15 lm => optionHeader P 15#4 lm
  | .badL15 dm => dm != 15#4 && optionHeader P dm 15#4
  | .pmark => true
  | .eoo => true
  | .xdecN m p => literalMarker m && fits P p
  | .xdec1 p => fits P p
  | .xdec2 p => fits P p
  | .xdecX p => fits P p
  | .uriPath voff l => payloadPlace P voff l
  | .contentFormat voff l => payloadPlace P voff l
  | .block21 voff => fits P voff
  | .block22 voff => fits P voff
  | .block23 voff => fits P voff
  | .block2BadLen voff l => payloadPlace P voff l && l != 1#17 && l != 2#17 && l != 3#17
  | .opaqueOpt num voff l => payloadPlace P voff l && untypedNumber P num && P.untypedPolicy == .opaque_
  | .untypedStrict num voff l => payloadPlace P voff l && untypedNumber P num && P.untypedPolicy == .strict
  | .unknown numx => decide (numx.toNat ≤ 131339) && !registered P numx
  | .nop => true
  | .start lenIn _ => fits P lenIn
  | .step => true
  | .scan => true
  | .reset => true
  | .bufwr a _ => fits P a
  | .bufrd a => fits P a
  | .regrd _ => true

end Sys2Proof
end

