-- ==== Sys2Proof/Safety.lean ====
section
/-! DEFINITION. What the claims speak of: the invariant of the reachable states, the spec's table of option formats, its list
of fault priorities, and runs of `STEP`. -/

namespace Sys2Proof.Machine

open Sys2Proof.Config

/-! ### The invariant -/

/-- The window: `CUR <= LEN <= BUF_CAP` (10_state.md R24). -/
abbrev State.windowOk (s : State) : Prop := s.cur ≤ s.len ∧ s.len ≤ s.cfg.bufCap

/-- The buffer is in its canonical form and every written offset exists (10_state.md R21). -/
abbrev State.bufferOk (s : State) : Prop := Memory.wf s.buf ∧ ∀ c ∈ s.buf, c.1 < s.cfg.bufCap

/-- All nine option registers are 0 (10_state.md R40). -/
abbrev State.optionClear (s : State) : Prop :=
  s.num = 0#16 ∧ s.delta = 0#17 ∧ s.olen = 0#17 ∧ s.voff = 0 ∧ s.variant = .none ∧ s.cfId = 0#8 ∧ s.b2Num = 0#20 ∧
    s.b2M = 0#1 ∧ s.b2Szx = 0#3

/-- What the option registers hold after an option (10_state.md R29 to R35, R40): the number is `PREV` and registered, the
payload ends at `CUR`, and only the fields of the variant are set. -/
abbrev State.optionHeld (s : State) : Prop :=
  s.num = s.prev ∧ s.num ∈ s.cfg.registry ∧ s.delta.toNat ≤ 65804 ∧ s.olen.toNat ≤ 65804 ∧
    s.voff + s.olen.toNat = s.cur ∧ s.variant ≠ .none ∧
    (s.variant = .contentFormat → s.cfId ∈ s.cfg.contentFormats) ∧ (s.variant ≠ .contentFormat → s.cfId = 0#8) ∧
    (s.variant ≠ .block2 → s.b2Num = 0#20 ∧ s.b2M = 0#1 ∧ s.b2Szx = 0#3)

/-- The result registers carry meaning exactly when `KIND = OPTION` (10_state.md R40). -/
abbrev State.resultOk (s : State) : Prop :=
  (s.kind ≠ .option → s.optionClear) ∧ (s.kind = .option → s.optionHeld)

/-- `ERR` is set exactly on a fault, and never to a serializer's code (10_state.md R28; 60_exceptions.md R237). -/
abbrev State.errOk (s : State) : Prop :=
  (s.err = .none ↔ s.kind ≠ .fault) ∧ s.err ≠ .encodingOverflow ∧ s.err ≠ .invalidOrdering

/-- What the phase says of the last result (10_state.md R26, R27; 43_commands_scanner.md R189). -/
abbrev State.phaseOk (s : State) : Prop :=
  (s.phase = .idle → s.kind = .none ∧ s.len = 0 ∧ s.prev = 0#16) ∧
    (s.phase = .ready → s.kind = .none ∨ s.kind = .option) ∧
    (s.phase = .halt → s.kind = .endOfOptions ∨ s.kind = .payloadMarker ∨ s.kind = .fault) ∧
    (s.kind = .endOfOptions → s.cur = s.len)

/-- Every transaction the host is going to drive fits its ports (30_encoding.md R83). -/
def inputFits (P : Params) : HostInput → Bool
  | .cmd _ lenIn _ => fits P lenIn
  | .rst => true
  | .bufWrite a _ => fits P a
  | .bufRead a => fits P a
  | .regRead _ => true

/-- The invariant of the states the machine can be in. -/
structure State.Inv (s : State) : Prop where
  params : s.cfg.wf
  window : s.windowOk
  buffer : s.bufferOk
  result : s.resultOk
  error : s.errOk
  phases : s.phaseOk
  ports : ∀ x ∈ s.inputs, inputFits s.cfg x = true

/-! ### The nine option formats -/

/-- A row of the table of 30_encoding.md R76: where the payload starts, the delta and the length. -/
structure Layout where
  payloadAt : Nat
  delta : Nat
  length : Nat
  deriving DecidableEq, Repr

/-- The table of 30_encoding.md R76; `b k` is the byte at offset `k` from the header byte. -/
def layout (i : Instr) (b : Nat → Byte) : Option Layout :=
  let e1 (k : Nat) : Nat := (b k).toNat + 13
  let e2 (k : Nat) : Nat := (b k).toNat * 256 + (b (k + 1)).toNat + 269
  match i with
  | .optNN dm lm => some ⟨1, dm.toNat, lm.toNat⟩
  | .optN1 dm => some ⟨2, dm.toNat, e1 1⟩
  | .optN2 dm => some ⟨3, dm.toNat, e2 1⟩
  | .opt1N lm => some ⟨2, e1 1, lm.toNat⟩
  | .opt11 => some ⟨3, e1 1, e1 2⟩
  | .opt12 => some ⟨4, e1 1, e2 2⟩
  | .opt2N lm => some ⟨3, e2 1, lm.toNat⟩
  | .opt21 => some ⟨4, e2 1, e1 3⟩
  | .opt22 => some ⟨5, e2 1, e2 3⟩
  | _ => none

/-- The format of the option form that stands at the cursor. -/
def State.layoutAt (s : State) (i : Instr) : Option Layout := layout i fun k => s.byteAt (s.cur + k)

/-! ### Fault priority -/

/-- The defects of the frame at the cursor in the order of 60_exceptions.md R236, each with its fault. Positions are counted
from the marker classes; nothing here depends on an earlier test having passed. -/
def State.defects (s : State) : List (Bool × Err) :=
  let h := s.byteAt s.cur
  let dm := deltaMarker h
  let lm := lengthMarker h
  let dx := (markerClass dm).extBytes
  let lx := (markerClass lm).extBytes
  let value (m : Nibble) (k : Nat) : Nat :=
    match markerClass m with
    | .literal => m.toNat
    | .one => (s.byteAt (s.cur + k)).toNat + 13
    | .two => (s.byteAt (s.cur + k)).toNat * 256 + (s.byteAt (s.cur + k + 1)).toNat + 269
    | .reserved => 0
  let number := s.prev.toNat + value dm 1
  let length := value lm (1 + dx)
  let typed := number = s.cfg.numUriPath.toNat ∨ number = s.cfg.numContentFormat.toNat ∨ number = s.cfg.numBlock2.toNat
  [ (decide (dm = 15#4), .malformedHeader),
    (decide (s.rem < 1 + dx), .truncatedInput),
    (decide (lm = 15#4), .malformedHeader),
    (decide (s.rem < 1 + dx + lx), .truncatedInput),
    (decide (s.rem < 1 + dx + lx + length), .truncatedInput),
    (!Reference.known s.cfg number, .unknownOption),
    (decide (¬ typed ∧ s.cfg.untypedPolicy = .strict), .unknownOption),
    (decide ((number = s.cfg.numContentFormat.toNat ∧ length ≠ 1) ∨
      (number = s.cfg.numBlock2.toNat ∧ length ≠ 1 ∧ length ≠ 2 ∧ length ≠ 3)), .malformedHeader),
    (decide (number = s.cfg.numContentFormat.toNat ∧
      s.byteAt (s.cur + 1 + dx + lx) ∉ s.cfg.contentFormats), .invalidValue) ]

/-- The fault of the first defect, if there is one. -/
def State.firstDefect (s : State) : Option Err := (s.defects.find? fun d => d.1).map fun d => d.2

/-! ### Runs -/

/-- `n` `STEP` commands, one after the other (43_commands_scanner.md R187). -/
def stepTimes : Nat → State → Host.Outcome State Fault Refusal
  | 0, s => .next s
  | n + 1, s =>
    match exec .step s with
    | .next t => stepTimes n t
    | .fault r => .fault r
    | .refused r => .refused r

/-- Two states that a step cannot tell apart: the same parameters, cursor, length, previous number and phase, and the same
remainder (41_frame_parse.md R136, 10_state.md R41). -/
abbrev State.sameFrameInputs (s t : State) : Prop :=
  s.cfg = t.cfg ∧ s.cur = t.cur ∧ s.len = t.len ∧ s.prev = t.prev ∧ s.phase = t.phase ∧ s.remainder = t.remainder

/-- Every register of the block is the same in two states (10_state.md R38). -/
abbrev State.sameRegisters (s t : State) : Prop :=
  s.phase = t.phase ∧ s.kind = t.kind ∧ s.err = t.err ∧ s.cur = t.cur ∧ s.len = t.len ∧ s.prev = t.prev ∧ s.num = t.num ∧
    s.delta = t.delta ∧ s.olen = t.olen ∧ s.voff = t.voff ∧ s.variant = t.variant ∧ s.cfId = t.cfId ∧ s.b2Num = t.b2Num ∧
    s.b2M = t.b2M ∧ s.b2Szx = t.b2Szx

end Sys2Proof.Machine
end

