-- ==== Sys2Proof/Certificates/Slice0/Obligations.lean ====
section
/-! DEFINITION. What is claimed of the model, one `def Obligations.<Name> : Prop` each; OBLIGATIONS.json lists them with the
rules they formalise. Nothing is proved here. -/

open Sys2Proof Sys2Proof.Machine Sys2Proof.Config
open Sys2Proof.Reference (construct parseOne encodeExtended serialize serializeAll block2Payload block2Fields
  contentFormatPayload uriPathPayload)

/-! ### Encoding -/

/-- Words written out from 30_encoding.md R76, R79, R80, R72, R82 and R83 decode to the instructions they stand for. The words
are read under the default parameters of 00_scope.md R6, which are PRESUMED (log entry 1): that byte 255 is the payload
marker, and which numbers the two payload words select by 42_value_decode.md R150 and R151, is true of those values. That a
word of no bits is the empty remainder is the model's choice (log entry 10). -/
def Obligations.SpecWordsDecode : Prop :=
  decodeTableWord 8 0b10110100 = some (.optNN 11#4 4#4) ∧
  decodeTableWord 8 0b10111101 = some (.optN1 11#4) ∧
  decodeTableWord 8 0b00001110 = some (.optN2 0#4) ∧
  decodeTableWord 8 0b11010001 = some (.opt1N 1#4) ∧
  decodeTableWord 8 0b11011101 = some .opt11 ∧
  decodeTableWord 8 0b11011110 = some .opt12 ∧
  decodeTableWord 8 0b11100011 = some (.opt2N 3#4) ∧
  decodeTableWord 8 0b11101101 = some .opt21 ∧
  decodeTableWord 8 0b11101110 = some .opt22 ∧
  decodeTableWord 8 0b11110001 = some (.badD15 1#4) ∧
  decodeTableWord 8 0b11011111 = some (.badL15 13#4) ∧
  decodeTableWord 8 0b11111111 = some .pmark ∧
  decodeTableWord 0 0 = some .eoo ∧
  decode Params.default (.marker 0b1100#4 7) = .ok (.xdecN 12#4 7) ∧
  decode Params.default (.marker 0b1101#4 1) = .ok (.xdec1 1) ∧
  decode Params.default (.payload 23#18 2 1#17) = .ok (.block21 2) ∧
  decode Params.default (.payload 2#18 1 0#17) = .ok (.unknown 2#18) ∧
  decode Params.default (.host (.cmd 0b01#2 5 0#16)) = .ok (.start 5 0#16) ∧
  decode Params.default (.host (.cmd 0b10#2 0 0#16)) = .ok .step ∧
  decode Params.default (.host (.cmd 0b11#2 0 0#16)) = .ok .scan

/-- Decode of encode is the instruction, for every well-formed instruction under every parameters: no bit of an encoding is
dropped. -/
def Obligations.DecodeOfEncode : Prop :=
  ∀ (P : Params) (i : Instr), P.wf → i.wf P = true → decode P (encode P i) = .ok i

/-- What the decoder accepts is well formed: it never invents an operand the encoding does not admit. -/
def Obligations.DecodedIsWellFormed : Prop :=
  ∀ (P : Params) (c : Code) (i : Instr), P.wf → decode P c = .ok i → i.wf P = true

/-- Every header byte is exactly the encoding of the form it decodes to: no two bytes share a form with the same operands,
and none is lost. -/
def Obligations.HeaderByteReencodes : Prop :=
  ∀ (P : Params) (h : Byte), encode P (decodeHeader P h) = .frame [h]

/-- 30_encoding.md R79: the five tests in their order decide the form at the cursor; the nibbles are read as numbers. -/
def Obligations.FormAtCursorByOrderedTests : Prop :=
  ∀ s : State,
    (s.rem = 0 → s.frameAt = .eoo) ∧
    (s.rem ≠ 0 →
      let h := s.byteAt s.cur
      let dm := h.toNat / 16
      let lm := h.toNat % 16
      (h = s.cfg.payloadMarker → s.frameAt = .pmark) ∧
      (h ≠ s.cfg.payloadMarker →
        (dm = 15 → s.frameAt = .badD15 (BitVec.ofNat 4 lm)) ∧
        (dm ≤ 14 → lm = 15 → s.frameAt = .badL15 (BitVec.ofNat 4 dm)) ∧
        (dm ≤ 12 → lm ≤ 12 → s.frameAt = .optNN (BitVec.ofNat 4 dm) (BitVec.ofNat 4 lm)) ∧
        (dm ≤ 12 → lm = 13 → s.frameAt = .optN1 (BitVec.ofNat 4 dm)) ∧
        (dm ≤ 12 → lm = 14 → s.frameAt = .optN2 (BitVec.ofNat 4 dm)) ∧
        (dm = 13 → lm ≤ 12 → s.frameAt = .opt1N (BitVec.ofNat 4 lm)) ∧
        (dm = 13 → lm = 13 → s.frameAt = .opt11) ∧
        (dm = 13 → lm = 14 → s.frameAt = .opt12) ∧
        (dm = 14 → lm ≤ 12 → s.frameAt = .opt2N (BitVec.ofNat 4 lm)) ∧
        (dm = 14 → lm = 13 → s.frameAt = .opt21) ∧
        (dm = 14 → lm = 14 → s.frameAt = .opt22)))

/-! ### A step runs the decoded instruction -/

/-- The machine's step is `exec` of the instruction that the host's next transaction decodes to, on the state in which that
transaction is taken; with nothing driven the state stays as it is; a value its port cannot carry is refused. That the
host's transactions stand in a list of the state, and that refusal, are the model's choice (log entries 3 and 20). -/
def Obligations.StepRunsHostTransaction : Prop :=
  (∀ (s : State) (x : HostInput) (rest : List HostInput) (i : Instr),
    s.inputs = x :: rest → decode s.cfg (.host x) = .ok i → step s = exec i { s with inputs := rest }) ∧
  (∀ s : State, s.inputs = [] → step s = .next s) ∧
  (∀ (s : State) (x : HostInput) (rest : List HostInput) (e : DecodeError),
    s.inputs = x :: rest → decode s.cfg (.host x) = .error e → step s = .refused .undecodable)

/-- The command `STEP` in phase `READY` is `exec` of the frame form that the bytes at the cursor decode to: the thirteen
meanings of 41_frame_parse.md R121 to R135 are together the step of R120. -/
def Obligations.StepCommandRunsFrameAtCursor : Prop :=
  ∀ (s : State) (i : Instr), s.phase = .ready →
    decode s.cfg (.frame (if s.rem = 0 then [] else [s.byteAt s.cur])) = .ok i → exec .step s = exec i s

/-! ### The frame forms -/

/-- 41_frame_parse.md R121: `EOO`. Everything not named keeps its value. -/
def Obligations.EndOfOptionsStep : Prop :=
  ∀ s : State, s.phase = .ready → s.rem = 0 →
    exec .eoo s = .next
      { s with
        kind := .endOfOptions, err := .none, phase := .halt, num := 0#16, delta := 0#17, olen := 0#17, voff := 0,
        variant := .none, cfId := 0#8, b2Num := 0#20, b2M := 0#1, b2Szx := 0#3, out := s.out ++ [.endOfOptions s.cur] }

/-- 41_frame_parse.md R122: `PMARK`; the remainder is the buffer with that byte removed. -/
def Obligations.PayloadMarkerStep : Prop :=
  ∀ s : State, s.phase = .ready → s.rem ≠ 0 → s.byteAt s.cur = s.cfg.payloadMarker →
    ∃ t : State, exec .pmark s = .next t ∧ t.remainder = s.remainder.tail ∧
      t = { s with
        kind := .payloadMarker, err := .none, phase := .halt, cur := s.cur + 1, num := 0#16, delta := 0#17, olen := 0#17,
        voff := 0, variant := .none, cfId := 0#8, b2Num := 0#20, b2M := 0#1, b2Szx := 0#3,
        out := s.out ++ [.payloadMarker (s.cur + 1)] }

/-- 41_frame_parse.md R123, for the nine `OPT.xy` forms with the payload offset, delta and length of 30_encoding.md R76: a
complete frame whose number and payload are accepted is committed. Everything not named keeps its value; the number is the
previous number plus the delta. -/
def Obligations.OptionFormsCommit : Prop :=
  ∀ (s : State) (i : Instr) (f : Layout) (v : Typed),
    s.phase = .ready → s.frameAt = i → s.layoutAt i = some f → f.payloadAt + f.length ≤ s.rem →
    construct s.cfg (s.prev.toNat + f.delta) (s.slice (s.cur + f.payloadAt) f.length) = .ok v →
    exec i s = .next
      { s with
        kind := .option, err := .none, num := BitVec.ofNat 16 (s.prev.toNat + f.delta), delta := BitVec.ofNat 17 f.delta,
        olen := BitVec.ofNat 17 f.length, voff := s.cur + f.payloadAt, variant := v.variant, cfId := v.cfId,
        b2Num := v.b2Num, b2M := v.b2M, b2Szx := v.b2Szx, prev := BitVec.ofNat 16 (s.prev.toNat + f.delta),
        cur := s.cur + f.payloadAt + f.length,
        out := s.out ++ [.option (BitVec.ofNat 16 (s.prev.toNat + f.delta)) (BitVec.ofNat 17 f.delta)
          (BitVec.ofNat 17 f.length) (s.cur + f.payloadAt) v.variant v.cfId v.b2Num v.b2M v.b2Szx
          (s.cur + f.payloadAt + f.length)] }

/-- Where the nine `OPT.xy` forms fault (41_frame_parse.md R125 to R133): `TruncatedInput` when the header's extension bytes
or the payload do not fit the remainder, whatever the number; otherwise the fault of the construction. The state after is
that of fault entry (60_exceptions.md R240). -/
def Obligations.OptionFormsFault : Prop :=
  ∀ (s : State) (i : Instr) (f : Layout) (e : Err),
    s.phase = .ready → s.frameAt = i → s.layoutAt i = some f →
    (s.rem < f.payloadAt ∨ s.rem < f.payloadAt + f.length) ∧ e = .truncatedInput ∨
      f.payloadAt + f.length ≤ s.rem ∧
        construct s.cfg (s.prev.toNat + f.delta) (s.slice (s.cur + f.payloadAt) f.length) = .error e →
    exec i s = .next
      { s with
        kind := .fault, err := e, phase := .halt, num := 0#16, delta := 0#17, olen := 0#17, voff := 0,
        variant := .none, cfId := 0#8, b2Num := 0#20, b2M := 0#1, b2Szx := 0#3, out := s.out ++ [.fault e s.cur] }

/-- 41_frame_parse.md R134: a delta marker 15 is `MalformedHeader`, whatever the length marker is and however many bytes
follow. -/
def Obligations.BadDeltaMarkerFaults : Prop :=
  ∀ (s : State) (lm : Nibble), s.phase = .ready → s.rem ≠ 0 → s.byteAt s.cur = headerByte 15#4 lm →
    s.byteAt s.cur ≠ s.cfg.payloadMarker →
    exec (.badD15 lm) s = .next
      { s with
        kind := .fault, err := .malformedHeader, phase := .halt, num := 0#16, delta := 0#17, olen := 0#17, voff := 0,
        variant := .none, cfId := 0#8, b2Num := 0#20, b2M := 0#1, b2Szx := 0#3,
        out := s.out ++ [.fault .malformedHeader s.cur] }

/-- 41_frame_parse.md R135: a length marker 15 is `MalformedHeader`, unless the delta's extension bytes are missing, which is
found first and is `TruncatedInput`. -/
def Obligations.BadLengthMarkerFaults : Prop :=
  ∀ (s : State) (dm : Nibble) (e : Err), s.phase = .ready → s.rem ≠ 0 → dm.toNat ≤ 14 →
    s.byteAt s.cur = headerByte dm 15#4 → s.byteAt s.cur ≠ s.cfg.payloadMarker →
    e = (if (dm.toNat = 13 ∧ s.rem < 2) ∨ (dm.toNat = 14 ∧ s.rem < 3) then .truncatedInput else .malformedHeader) →
    exec (.badL15 dm) s = .next
      { s with
        kind := .fault, err := e, phase := .halt, num := 0#16, delta := 0#17, olen := 0#17, voff := 0,
        variant := .none, cfId := 0#8, b2Num := 0#20, b2M := 0#1, b2Szx := 0#3, out := s.out ++ [.fault e s.cur] }

/-- 60_exceptions.md R236: a step in `READY` tests the two sentinels first; on any other frame it reports the first defect of
the list there, and only when there is none produces an option. -/
def Obligations.FirstDefectIsReported : Prop :=
  ∀ s : State, s.cfg.wf → s.phase = .ready →
    ∃ t : State, exec .step s = .next t ∧
      (s.rem = 0 → t.kind = .endOfOptions ∧ t.err = .none) ∧
      (s.rem ≠ 0 → s.byteAt s.cur = s.cfg.payloadMarker → t.kind = .payloadMarker ∧ t.err = .none) ∧
      (s.rem ≠ 0 → s.byteAt s.cur ≠ s.cfg.payloadMarker →
        (∀ e : Err, s.firstDefect = some e → t.kind = .fault ∧ t.err = e ∧ t.cur = s.cur ∧ t.prev = s.prev) ∧
        (s.firstDefect = none → t.kind = .option ∧ t.err = .none))

/-- The step is the source's `parseOne` (41_frame_parse.md R138, 43_commands_scanner.md R192): on the bytes
`BUF[CUR .. LEN-1]` and `PREV`, with the result in the registers and the remainder at the new cursor. -/
def Obligations.StepRefinesParseOne : Prop :=
  ∀ s : State, s.phase = .ready →
    ∃ t : State, exec .step s = .next t ∧
      match parseOne s.cfg s.remainder s.prev.toNat with
      | .option number delta payload v rest =>
        t.kind = .option ∧ t.phase = .ready ∧ t.err = .none ∧ t.num.toNat = number ∧ t.prev.toNat = number ∧
          t.delta.toNat = delta ∧ t.slice t.voff t.olen.toNat = payload ∧ t.remainder = rest ∧ t.variant = v.variant ∧
          t.cfId = v.cfId ∧ t.b2Num = v.b2Num ∧ t.b2M = v.b2M ∧ t.b2Szx = v.b2Szx
      | .endOfOptions => t.kind = .endOfOptions ∧ t.phase = .halt ∧ t.err = .none ∧ t.remainder = [] ∧ t.prev = s.prev
      | .payloadMarker rest =>
        t.kind = .payloadMarker ∧ t.phase = .halt ∧ t.err = .none ∧ t.remainder = rest ∧ t.prev = s.prev
      | .failure e => t.kind = .fault ∧ t.phase = .halt ∧ t.err = e ∧ t.cur = s.cur ∧ t.prev = s.prev

/-! ### The extended-field decoder -/

/-- 40_extended_field.md R101 to R104: the four forms, inside a step and at a position inside the window. The value is
returned and no register is written; a fault is fault entry. That the returned pair stands in a field of the state, and that
a form runs by itself there, are the model's choices (log entries 6 and 7). -/
def Obligations.ExtendedFieldForms : Prop :=
  ∀ (s : State) (p : Nat), s.phase = .ready → p ≤ s.len →
    let faulted (e : Err) : State :=
      { s with
        kind := .fault, err := e, phase := .halt, num := 0#16, delta := 0#17, olen := 0#17, voff := 0,
        variant := .none, cfId := 0#8, b2Num := 0#20, b2M := 0#1, b2Szx := 0#3, out := s.out ++ [.fault e s.cur] }
    (∀ m : Nibble, m.toNat ≤ 12 →
      exec (.xdecN m p) s = .next { s with answer := .extended (BitVec.ofNat 17 m.toNat) p }) ∧
    (s.len - p < 1 → exec (.xdec1 p) s = .next (faulted .truncatedInput)) ∧
    (1 ≤ s.len - p →
      exec (.xdec1 p) s =
        .next { s with answer := .extended (BitVec.ofNat 17 ((s.byteAt p).toNat + 13)) (p + 1) }) ∧
    (s.len - p < 2 → exec (.xdec2 p) s = .next (faulted .truncatedInput)) ∧
    (2 ≤ s.len - p →
      exec (.xdec2 p) s =
        .next { s with
          answer := .extended (BitVec.ofNat 17 ((s.byteAt p).toNat * 256 + (s.byteAt (p + 1)).toNat + 269)) (p + 2) }) ∧
    exec (.xdecX p) s = .next (faulted .malformedHeader)

/-- 40_extended_field.md R106: what a decoded extended field can be. -/
def Obligations.ExtendedValueInRange : Prop :=
  ∀ (s : State) (m : Nibble) (p q : Nat) (v : Ext), p ≤ s.len → xdec s m p = .ok (v, q) →
    v.toNat ≤ 65804 ∧ q = p + (markerClass m).extBytes ∧ q ≤ s.len ∧
      (m.toNat ≤ 12 → v.toNat ≤ 12) ∧ (m.toNat = 13 → 13 ≤ v.toNat ∧ v.toNat ≤ 268) ∧
      (m.toNat = 14 → 269 ≤ v.toNat) ∧ m.toNat ≤ 14

/-- The decoder is the inverse of `encodeExtended` (44_reference_encoder.md R211, R216), in both directions; above 65804
there is no encoding. -/
def Obligations.ExtendedFieldInverse : Prop :=
  (∀ v : Nat, v ≤ 65804 → ∃ (m : Nat) (ext : List Byte), encodeExtended v = .ok (m, ext) ∧ m ≤ 14 ∧
    ∀ (s : State) (p : Nat), ext.length ≤ s.len - p → s.slice p ext.length = ext →
      xdec s (BitVec.ofNat 4 m) p = .ok (BitVec.ofNat 17 v, p + ext.length)) ∧
  (∀ (s : State) (m : Nibble) (p q : Nat) (v : Ext), xdec s m p = .ok (v, q) →
    encodeExtended v.toNat = .ok (m.toNat, s.slice p (q - p))) ∧
  (∀ v : Nat, 65804 < v → encodeExtended v = .error .encodingOverflow)

/-! ### The registry check and the payload forms -/

/-- 10_state.md R29: the sum `PREV + d` is formed without truncation, so a registered sum is at most 65535. -/
def Obligations.NumberSumNeverWraps : Prop :=
  ∀ (s : State) (d : Ext), d.toNat ≤ 65804 →
    (s.numx d).toNat = s.prev.toNat + d.toNat ∧
      (registered s.cfg (s.numx d) = true ↔ ∃ r ∈ s.cfg.registry, r.toNat = s.prev.toNat + d.toNat)

/-- 42_value_decode.md R153, R154, R156 to R159: the payload forms that return a variant, with every field the payload's
bytes give. The payload form stands where its number and length select it, inside a step. That the returned tuple stands in a
field of the state, and that a form runs by itself there, are the model's choices (log entries 6 and 7); the layout of two and
three bytes is PRESUMED (log entry 13). -/
def Obligations.PayloadFormsReturn : Prop :=
  ∀ (s : State) (voff : Nat), s.phase = .ready → s.cfg.wf →
    (∀ l : Ext, voff + l.toNat ≤ s.len →
      exec (.uriPath voff l) s = .next { s with answer := .typed ⟨.uriPath, 0#8, 0#20, 0#1, 0#3⟩ }) ∧
    (voff + 1 ≤ s.len → s.byteAt voff ∈ s.cfg.contentFormats →
      exec (.contentFormat voff 1#17) s =
        .next { s with answer := .typed ⟨.contentFormat, s.byteAt voff, 0#20, 0#1, 0#3⟩ }) ∧
    (voff + 1 ≤ s.len →
      exec (.block21 voff) s = .next { s with answer := .typed (block2Fields (s.byteAt voff).toNat) }) ∧
    (voff + 2 ≤ s.len →
      exec (.block22 voff) s =
        .next { s with
          answer := .typed (block2Fields ((s.byteAt voff).toNat * 256 + (s.byteAt (voff + 1)).toNat)) }) ∧
    (voff + 3 ≤ s.len →
      exec (.block23 voff) s =
        .next { s with
          answer := .typed (block2Fields
            ((s.byteAt voff).toNat * 65536 + (s.byteAt (voff + 1)).toNat * 256 + (s.byteAt (voff + 2)).toNat)) }) ∧
    (∀ (num : OptNum) (l : Ext), voff + l.toNat ≤ s.len → num ∈ s.cfg.registry → num ≠ s.cfg.numUriPath →
      num ≠ s.cfg.numContentFormat → num ≠ s.cfg.numBlock2 → s.cfg.untypedPolicy = .opaque_ →
      exec (.opaqueOpt num voff l) s = .next { s with answer := .typed ⟨.opaque_, 0#8, 0#20, 0#1, 0#3⟩ })

/-- 42_value_decode.md R151, R154, R155, R160: the payload forms that fault, with the state of fault entry
(60_exceptions.md R240). That a form runs by itself inside a step is the model's choice (log entry 7). -/
def Obligations.PayloadFormsFault : Prop :=
  ∀ (s : State) (voff : Nat) (l : Ext), s.phase = .ready → s.cfg.wf → voff + l.toNat ≤ s.len →
    let faulted (e : Err) : State :=
      { s with
        kind := .fault, err := e, phase := .halt, num := 0#16, delta := 0#17, olen := 0#17, voff := 0,
        variant := .none, cfId := 0#8, b2Num := 0#20, b2M := 0#1, b2Szx := 0#3, out := s.out ++ [.fault e s.cur] }
    (∀ numx : Sum, (∀ r ∈ s.cfg.registry, r.toNat ≠ numx.toNat) →
      exec (.unknown numx) s = .next (faulted .unknownOption)) ∧
    (l.toNat ≠ 1 → exec (.contentFormat voff l) s = .next (faulted .malformedHeader)) ∧
    (l.toNat = 1 → s.byteAt voff ∉ s.cfg.contentFormats →
      exec (.contentFormat voff l) s = .next (faulted .invalidValue)) ∧
    (l.toNat ≠ 1 → l.toNat ≠ 2 → l.toNat ≠ 3 →
      exec (.block2BadLen voff l) s = .next (faulted .malformedHeader)) ∧
    (∀ num : OptNum, num ∈ s.cfg.registry → num ≠ s.cfg.numUriPath → num ≠ s.cfg.numContentFormat →
      num ≠ s.cfg.numBlock2 → s.cfg.untypedPolicy = .strict →
      exec (.untypedStrict num voff l) s = .next (faulted .unknownOption))

/-- 42_value_decode.md R150: the payload form that a number and a length select does what source steps 9 and 10 do with the
payload's bytes. That the returned tuple stands in a field of the state, and that a form runs by itself inside a step, are the
model's choices (log entries 6 and 7); the layout of a `Block2` payload of two and three bytes is PRESUMED (log entry 13). -/
def Obligations.SelectedPayloadFormConstructs : Prop :=
  ∀ (s : State) (numx : Sum) (voff : Nat) (l : Ext), s.phase = .ready → voff + l.toNat ≤ s.len →
    exec (decodePayload s.cfg numx voff l) s = .next
      (match construct s.cfg numx.toNat (s.slice voff l.toNat) with
      | .ok v => { s with answer := .typed v }
      | .error e =>
        { s with
          kind := .fault, err := e, phase := .halt, num := 0#16, delta := 0#17, olen := 0#17, voff := 0,
          variant := .none, cfId := 0#8, b2Num := 0#20, b2M := 0#1, b2Szx := 0#3, out := s.out ++ [.fault e s.cur] })

/-- The round trip of a `Block2` payload: the bytes that `Block2.fromFields` produces (44_reference_encoder.md R214), decoded
by the payload form they select (42_value_decode.md R155 to R158), give the same fields. That the returned tuple stands in a
field of the state is the model's choice (log entry 6); the layout of two and three bytes is PRESUMED (log entry 13).
`TypedFieldsParseBack` says the same of a whole serialized option under `STEP`. -/
def Obligations.BlockFieldsRoundTrip : Prop :=
  ∀ (s : State) (voff : Nat) (n : BitVec 20) (m : BitVec 1) (z : BitVec 3), s.phase = .ready → s.cfg.wf →
    voff + (block2Payload n m z).length ≤ s.len →
    s.slice voff (block2Payload n m z).length = block2Payload n m z →
    exec (decodePayload s.cfg (s.cfg.numBlock2.setWidth 18) voff (BitVec.ofNat 17 (block2Payload n m z).length)) s =
      .next { s with answer := .typed ⟨.block2, 0#8, n, m, z⟩ }

/-! ### Host commands and port operations -/

/-- 43_commands_scanner.md R182: `NOP` changes nothing. -/
def Obligations.NopChangesNothing : Prop := ∀ s : State, exec .nop s = .next s

/-- 43_commands_scanner.md R185: `START` in every phase, accepted or refused; everything not named keeps its value. -/
def Obligations.StartBeginsAtOffsetZero : Prop :=
  ∀ (s : State) (n : Nat) (q : OptNum),
    (n ≤ s.cfg.bufCap →
      exec (.start n q) s = .next
        { s with
          len := n, cur := 0, prev := q, phase := .ready, kind := .none, err := .none, num := 0#16, delta := 0#17,
          olen := 0#17, voff := 0, variant := .none, cfId := 0#8, b2Num := 0#20, b2M := 0#1, b2Szx := 0#3 }) ∧
    (s.cfg.bufCap < n → exec (.start n q) s = .next s)

/-- 43_commands_scanner.md R183: `BUFWR` writes its byte and no other, only outside `READY` and inside the buffer, and
touches no register and no record; a refused write changes nothing. -/
def Obligations.BufferWriteWritesOneByte : Prop :=
  ∀ (s : State) (a : Nat) (v : Byte), Memory.wf s.buf →
    (s.phase ≠ .ready → a < s.cfg.bufCap →
      ∃ t : State, exec (.bufwr a v) s = .next t ∧ t.byteAt a = v ∧ (∀ b : Nat, b ≠ a → t.byteAt b = s.byteAt b) ∧
        t.sameRegisters s ∧ t.out = s.out ∧ t.cfg = s.cfg ∧ t.answer = s.answer ∧ t.inputs = s.inputs) ∧
    (s.phase = .ready ∨ s.cfg.bufCap ≤ a → exec (.bufwr a v) s = .next s)

/-- 43_commands_scanner.md R184: `BUFRD` returns the byte, or 0 outside the buffer, in every phase and without side effect.
That the value stands in a field of the state is the model's choice (log entry 6). -/
def Obligations.BufferReadReturnsByte : Prop :=
  ∀ (s : State) (a : Nat),
    (a < s.cfg.bufCap → exec (.bufrd a) s = .next { s with answer := .byte (s.byteAt a) }) ∧
    (s.cfg.bufCap ≤ a → exec (.bufrd a) s = .next { s with answer := .byte 0#8 })

/-- 43_commands_scanner.md R188 with the table of 10_state.md R38 and the codes of R26, R27, R33 and 60_exceptions.md R231:
`REGRD` returns the register, 0 for number 15, in every phase and without side effect. That the value stands in a field of the
state, as a natural number, is the model's choice (log entry 6). -/
def Obligations.RegisterReadReturnsTable : Prop :=
  ∀ (s : State) (r : Nibble),
    exec (.regrd r) s = .next
      { s with
        answer := .reg (List.getD
          [ (match s.phase with | .idle => 0 | .ready => 1 | .halt => 2),
            (match s.kind with | .none => 0 | .option => 1 | .endOfOptions => 2 | .payloadMarker => 3 | .fault => 4),
            (match s.err with
              | .none => 0 | .truncatedInput => 1 | .malformedHeader => 2 | .unknownOption => 3 | .invalidValue => 4
              | .encodingOverflow => 5 | .invalidOrdering => 6),
            s.cur, s.len, s.prev.toNat, s.num.toNat, s.delta.toNat, s.olen.toNat, s.voff,
            (match s.variant with | .none => 0 | .uriPath => 1 | .contentFormat => 2 | .block2 => 3 | .opaque_ => 4),
            s.cfId.toNat, s.b2Num.toNat, s.b2M.toNat, s.b2Szx.toNat ] r.toNat 0) }

/-- 43_commands_scanner.md R181 with the table of 10_state.md R39: `RESET`, in every phase, gives every register its reset
value, emits nothing and recalls nothing. That `BUF`, which the spec leaves unspecified, holds no written byte afterwards is
the model's choice (log entry 5); `cfg`, `inputs` and `answer`, which stay, are the model's own fields (log entries 1, 3
and 6). -/
def Obligations.ResetCommandClearsRegisters : Prop :=
  ∀ s : State, ∃ t : State, exec .reset s = .next t ∧
    t.phase = .idle ∧ t.kind = .none ∧ t.err = .none ∧ t.cur = 0 ∧ t.len = 0 ∧ t.prev = 0#16 ∧ t.num = 0#16 ∧
    t.delta = 0#17 ∧ t.olen = 0#17 ∧ t.voff = 0 ∧ t.variant = .none ∧ t.cfId = 0#8 ∧ t.b2Num = 0#20 ∧ t.b2M = 0#1 ∧
    t.b2Szx = 0#3 ∧ t.haltLine = false ∧ t.faultLine = false ∧ (∀ a : Nat, Memory.read? t.buf a = none) ∧
    t.out = s.out ∧ t.cfg = s.cfg ∧ t.inputs = s.inputs ∧ t.answer = s.answer

/-- 43_commands_scanner.md R186: in `READY` a `STEP` is the frame form at the cursor and emits exactly one record; in every
other phase it changes nothing and emits nothing. -/
def Obligations.StepNeedsReady : Prop :=
  ∀ s : State,
    (s.phase = .ready →
      ∃ (t : State) (r : Record), exec .step s = .next t ∧ exec s.frameAt s = .next t ∧ t.out = s.out ++ [r]) ∧
    (s.phase ≠ .ready → exec .step s = .next s)

/-- 43_commands_scanner.md R187: `SCAN` is `STEP` repeated until the phase leaves `READY`, at most `LEN - CUR + 1` times, and
its last step is no option; outside `READY` it does nothing and emits nothing. -/
def Obligations.ScanIsRepeatedStep : Prop :=
  ∀ s : State,
    (s.phase = .ready →
      ∃ (n : Nat) (t : State), n ≤ s.rem + 1 ∧ exec .scan s = .next t ∧ stepTimes n s = .next t ∧ t.phase = .halt ∧
        (t.kind = .endOfOptions ∨ t.kind = .payloadMarker ∨ t.kind = .fault) ∧
        ∀ m < n, ∃ u : State, stepTimes m s = .next u ∧ u.phase = .ready) ∧
    (s.phase ≠ .ready → exec .scan s = .next s)

/-- 43_commands_scanner.md R189: the table of phase transitions. -/
def Obligations.PhaseTransitions : Prop :=
  ∀ s t : State,
    (exec .reset s = .next t → t.phase = .idle) ∧
    (∀ (n : Nat) (q : OptNum), exec (.start n q) s = .next t → t.phase = if n ≤ s.cfg.bufCap then .ready else s.phase) ∧
    (s.phase = .ready → exec .step s = .next t → (t.kind = .option ∧ t.phase = .ready) ∨
      ((t.kind = .endOfOptions ∨ t.kind = .payloadMarker ∨ t.kind = .fault) ∧ t.phase = .halt)) ∧
    (s.phase ≠ .ready → exec .step s = .next t ∨ exec .scan s = .next t → t.phase = s.phase) ∧
    (∀ (a : Nat) (v : Byte) (r : Nibble), exec .nop s = .next t ∨ exec (.bufwr a v) s = .next t ∨
      exec (.bufrd a) s = .next t ∨ exec (.regrd r) s = .next t → t.phase = s.phase)

/-! ### What is left alone -/

/-- The frame of a step: `LEN`, every byte of `BUF` and everything outside the block's registers and output stay; the
sentinels and faults keep `PREV`; only an option and the payload marker move `CUR`; `PHASE` stays on an option
(41_frame_parse.md R121, R122, R123; 60_exceptions.md R240). -/
def Obligations.StepFrame : Prop :=
  ∀ s t : State, exec .step s = .next t →
    t.len = s.len ∧ (∀ a : Nat, t.byteAt a = s.byteAt a) ∧ t.cfg = s.cfg ∧ t.inputs = s.inputs ∧ t.answer = s.answer ∧
      t.epoch = s.epoch ∧ (t.kind ≠ .option → t.prev = s.prev) ∧
      (t.kind ≠ .option → t.kind ≠ .payloadMarker → t.cur = s.cur) ∧ (t.kind = .option → t.phase = s.phase)

/-- The frame of a frame form is that of a step: what a form does where it stands, `STEP` does there too, and nothing else.
With `StepFrame` this says what each of the thirteen forms leaves alone. That a form answers no next state where it does not
stand, or outside `READY`, is the model's choice (log entry 8). -/
def Obligations.FrameFormsActOnlyWhereTheyStand : Prop :=
  ∀ (i : Instr) (s t : State),
    i ∈ [Instr.opt11, .opt12, .opt21, .opt22, .pmark, .eoo] ∨
      (∃ dm lm : Nibble, i = .optNN dm lm ∨ i = .optN1 dm ∨ i = .optN2 dm ∨ i = .opt1N lm ∨ i = .opt2N lm ∨ i = .badD15 lm ∨
        i = .badL15 dm) →
    exec i s = .next t → s.phase = .ready ∧ s.frameAt = i ∧ exec .step s = .next t

/-- Where a form that is no host operation stops by name: a frame form that does not stand at the cursor in `READY`, an
extended-field or payload form outside a step, one that its operands do not select, and one whose position or payload does
not lie inside the window. That these are stops is the model's choice (log entries 7 and 8). -/
def Obligations.UnperformedFormsStop : Prop :=
  ∀ s : State,
    (∀ (i : Instr) (dm lm : Nibble),
      i ∈ [Instr.opt11, .opt12, .opt21, .opt22, .pmark, .eoo, .optNN dm lm, .optN1 dm, .optN2 dm, .opt1N lm, .opt2N lm,
        .badD15 lm, .badL15 dm] →
      s.phase ≠ .ready ∨ s.frameAt ≠ i → exec i s = .refused .notSelected) ∧
    (∀ (m : Nibble) (p : Nat),
      (s.phase ≠ .ready → exec (decodeMarker m p) s = .refused .notSelected) ∧
      (s.phase = .ready → s.len < p → exec (decodeMarker m p) s = .fault .outsideWindow) ∧
      (12 < m.toNat → exec (.xdecN m p) s = .refused .notSelected)) ∧
    (∀ (numx : Sum) (voff : Nat) (l : Ext),
      (s.phase ≠ .ready → exec (decodePayload s.cfg numx voff l) s = .refused .notSelected) ∧
      (s.phase = .ready → (∃ r ∈ s.cfg.registry, r.toNat = numx.toNat) → s.len < voff + l.toNat →
        exec (decodePayload s.cfg numx voff l) s = .fault .outsideWindow) ∧
      ((∃ r ∈ s.cfg.registry, r.toNat = numx.toNat) → exec (.unknown numx) s = .refused .notSelected) ∧
      (1 ≤ l.toNat → l.toNat ≤ 3 → exec (.block2BadLen voff l) s = .refused .notSelected)) ∧
    (∀ (num : OptNum) (voff : Nat) (l : Ext),
      (num ∉ s.cfg.registry ∨ num = s.cfg.numUriPath ∨ num = s.cfg.numContentFormat ∨ num = s.cfg.numBlock2 ∨
        s.cfg.untypedPolicy = .strict → exec (.opaqueOpt num voff l) s = .refused .notSelected) ∧
      (num ∉ s.cfg.registry ∨ num = s.cfg.numUriPath ∨ num = s.cfg.numContentFormat ∨ num = s.cfg.numBlock2 ∨
        s.cfg.untypedPolicy = .opaque_ → exec (.untypedStrict num voff l) s = .refused .notSelected))

/-- 20_memory.md R61: the block never writes `BUF`; the only write is the host's `BUFWR`, outside `READY` and inside the
buffer. (`RESET` leaves `BUF` unspecified, 10_state.md R39, so it is no exception to a write.) -/
def Obligations.OnlyBufferWriteChangesBytes : Prop :=
  ∀ (i : Instr) (s t : State), exec i s = .next t → i ≠ .reset →
    ((∀ (a : Nat) (v : Byte), i ≠ .bufwr a v) → ∀ b : Nat, t.byteAt b = s.byteAt b) ∧
    (∀ (a : Nat) (v : Byte), i = .bufwr a v → s.phase = .ready ∨ s.cfg.bufCap ≤ a →
      ∀ b : Nat, t.byteAt b = s.byteAt b)

/-- 10_state.md R22: `LEN` is written by `START` and by reset and by nothing else. -/
def Obligations.OnlyStartAndResetWriteLen : Prop :=
  ∀ (i : Instr) (s t : State), exec i s = .next t → i ≠ .reset → (∀ (n : Nat) (q : OptNum), i ≠ .start n q) →
    t.len = s.len

/-- 10_state.md R25: `PREV` is written by `START`, by reset and by a step that produces an option, then with the option's
number; not by a sentinel or a fault. -/
def Obligations.PrevFollowsOptions : Prop :=
  ∀ (i : Instr) (s t : State), exec i s = .next t → i ≠ .reset → (∀ (n : Nat) (q : OptNum), i ≠ .start n q) →
    i ≠ .scan → t.prev ≠ s.prev → t.kind = .option ∧ t.prev = t.num

/-- 10_state.md R41: no instruction changes the parameters. That they stand in a field of the state is the model's choice
(log entry 1). -/
def Obligations.ParametersNeverChange : Prop :=
  ∀ (i : Instr) (s t : State), exec i s = .next t → t.cfg = s.cfg

/-- 10_state.md R37: records are emitted at the end of steps only, and what was emitted is never recalled. -/
def Obligations.OutputOnlyGrowsBySteps : Prop :=
  ∀ (i : Instr) (s t : State), exec i s = .next t →
    (∃ rs : List Record, t.out = s.out ++ rs) ∧ (s.phase ≠ .ready → t.out = s.out) ∧
    (∀ (n a : Nat) (q : OptNum) (v : Byte) (r : Nibble),
      i ∈ [Instr.nop, .reset, .start n q, .bufwr a v, .bufrd a, .regrd r] → t.out = s.out)

/-- 60_exceptions.md R242: once halted, every register and the output stay as they are until `START` or `RESET`. -/
def Obligations.HaltKeepsRegisters : Prop :=
  ∀ (i : Instr) (s t : State), s.phase = .halt → exec i s = .next t → i ≠ .reset →
    (∀ (n : Nat) (q : OptNum), i ≠ .start n q) → t.sameRegisters s ∧ t.out = s.out

/-! ### What a step produces -/

/-- 41_frame_parse.md R137: a step commits a whole option with its payload inside `[0, LEN)`, or produces a sentinel, or
faults leaving `CUR` and `PREV` as they were. -/
def Obligations.StepIsAllOrNothing : Prop :=
  ∀ s t : State, s.phase = .ready → exec .step s = .next t →
    (t.kind = .option ∧ s.cur < t.voff ∧ t.voff + t.olen.toNat = t.cur ∧ t.cur ≤ s.len ∧ t.prev = t.num) ∨
    ((t.kind = .endOfOptions ∨ t.kind = .fault) ∧ t.cur = s.cur ∧ t.prev = s.prev) ∨
    (t.kind = .payloadMarker ∧ t.cur = s.cur + 1 ∧ t.cur ≤ s.len ∧ t.prev = s.prev)

/-- 60_exceptions.md R240: whatever the cause, a step that faults leaves exactly the state of fault entry, and
raises both output lines. -/
def Obligations.FaultEntryState : Prop :=
  ∀ s t : State, s.phase = .ready → exec .step s = .next t → t.kind = .fault →
    (t.err = .truncatedInput ∨ t.err = .malformedHeader ∨ t.err = .unknownOption ∨ t.err = .invalidValue) ∧
    t = { s with
      kind := .fault, err := t.err, phase := .halt, num := 0#16, delta := 0#17, olen := 0#17, voff := 0,
      variant := .none, cfId := 0#8, b2Num := 0#20, b2M := 0#1, b2Szx := 0#3, out := s.out ++ [.fault t.err s.cur] } ∧
    t.haltLine = true ∧ t.faultLine = true

/-- 10_state.md R36: the two output lines. -/
def Obligations.OutputLinesFollowRegisters : Prop :=
  ∀ s : State, (s.haltLine = true ↔ s.phase = .halt) ∧ (s.faultLine = true ↔ s.kind = .fault)

/-- A step on equal inputs gives equal outcomes (41_frame_parse.md R136, 10_state.md R41): it depends on the parameters, the
remainder, `CUR`, `LEN`, `PREV` and `PHASE`, and on no other byte, result register or record. -/
def Obligations.StepDependsOnFrameInputsOnly : Prop :=
  ∀ s t : State, s.phase = .ready → s.sameFrameInputs t →
    ∃ (s' t' : State) (r : Record), exec .step s = .next s' ∧ exec .step t = .next t' ∧ s'.sameRegisters t' ∧
      s'.out = s.out ++ [r] ∧ t'.out = t.out ++ [r]

/-! ### Reset and the invariant -/

/-- 10_state.md R39: the state after reset. The parameters' values in it, and `epoch`, `inputs`, `answer`, are the model's
(log entries 1, 3, 5, 6) and not claimed here. That no byte of `BUF` is listed as written, and that `OUT` is empty in the
model's first state, are the model's choices (log entries 4 and 14). -/
def Obligations.ResetStateRegisters : Prop :=
  let s := State.reset
  s.phase = .idle ∧ s.kind = .none ∧ s.err = .none ∧ s.cur = 0 ∧ s.len = 0 ∧ s.prev = 0#16 ∧ s.num = 0#16 ∧
    s.delta = 0#17 ∧ s.olen = 0#17 ∧ s.voff = 0 ∧ s.variant = .none ∧ s.cfId = 0#8 ∧ s.b2Num = 0#20 ∧ s.b2M = 0#1 ∧
    s.b2Szx = 0#3 ∧ s.haltLine = false ∧ s.faultLine = false ∧ s.out = [] ∧
    ∀ a : Nat, Memory.read? s.buf a = none

/-- The invariant holds right after reset. -/
def Obligations.ResetStateInv : Prop := State.reset.Inv

/-- Every instruction keeps the invariant: the window `CUR <= LEN <= BUF_CAP`, the canonical form of the buffer, which result
registers carry meaning, the fault code, and what the phase says of the last result. -/
def Obligations.EveryInstructionKeepsInv : Prop :=
  ∀ (i : Instr) (s t : State), s.Inv → exec i s = .next t → t.Inv

/-- Every step of the machine keeps the invariant, from every state that has it. -/
def Obligations.EveryStepKeepsInv : Prop := ∀ s t : State, s.Inv → step s = .next t → t.Inv

/-- From a state with the invariant the machine never stops, neither by a fault nor by a refusal, however long it runs, and
the invariant holds throughout. -/
def Obligations.RunsNeverStop : Prop :=
  ∀ (s : State) (n : Nat), s.Inv → ∃ t : State, Sys2Proof.core.run n s = .next t ∧ t.Inv

/-! ### Round trips -/

/-- The round trip of one option (44_reference_encoder.md R217): a serialized option that stands at the cursor, its header
byte not the payload marker, its number registered and its payload acceptable, is parsed back whole. -/
def Obligations.SerializedOptionParsesBack : Prop :=
  ∀ (s : State) (number : Nat) (payload frame : List Byte),
    s.phase = .ready → serialize number s.prev.toNat payload = .ok frame →
    frame.length ≤ s.rem → s.slice s.cur frame.length = frame → s.byteAt s.cur ≠ s.cfg.payloadMarker →
    (∃ r ∈ s.cfg.registry, r.toNat = number) →
    (number = s.cfg.numContentFormat.toNat → number ≠ s.cfg.numUriPath.toNat →
      ∃ f ∈ s.cfg.contentFormats, payload = [f]) →
    (number = s.cfg.numBlock2.toNat → number ≠ s.cfg.numUriPath.toNat → number ≠ s.cfg.numContentFormat.toNat →
      1 ≤ payload.length ∧ payload.length ≤ 3) →
    (s.cfg.untypedPolicy = .opaque_ ∨ number = s.cfg.numUriPath.toNat ∨ number = s.cfg.numContentFormat.toNat ∨
      number = s.cfg.numBlock2.toNat) →
    ∃ t : State, exec .step s = .next t ∧ t.kind = .option ∧ t.num.toNat = number ∧
      t.delta.toNat = number - s.prev.toNat ∧ t.olen.toNat = payload.length ∧ t.slice t.voff t.olen.toNat = payload ∧
      t.cur = s.cur + frame.length

/-- The round trip of a list (44_reference_encoder.md R218): options serialized in order and scanned leave one record each,
in order, with their numbers and payloads, then the record of the end of the options; with the payload marker after them,
the record of the marker, and the message payload is the remainder. -/
def Obligations.SerializedListScansBack : Prop :=
  ∀ (s : State) (options : List (Nat × List Byte)) (bytes : List Byte),
    s.phase = .ready → serializeAll s.prev.toNat options = .ok bytes →
    bytes.length ≤ s.rem → s.slice s.cur bytes.length = bytes →
    (∀ o ∈ options, ∃ v : Typed, construct s.cfg o.1 o.2 = .ok v) →
    (∀ (before after : List (Nat × List Byte)) (o : Nat × List Byte) (frame : List Byte), options = before ++ o :: after →
      serialize o.1 ((before.getLast?.map Prod.fst).getD s.prev.toNat) o.2 = .ok frame →
      frame.head? ≠ some s.cfg.payloadMarker) →
    (s.rem = bytes.length ∨ s.byteAt (s.cur + bytes.length) = s.cfg.payloadMarker) →
    ∃ (t : State) (records : List Record) (last : Record),
      exec .scan s = .next t ∧ t.out = s.out ++ records ++ [last] ∧
      List.Forall₂ (fun (o : Nat × List Byte) (r : Record) =>
        ∃ (num : OptNum) (d l : Ext) (voff : Nat) (v : Typed) (cur : Nat),
          r = .option num d l voff v.variant v.cfId v.b2Num v.b2M v.b2Szx cur ∧ num.toNat = o.1 ∧
            t.slice voff l.toNat = o.2 ∧ construct s.cfg o.1 o.2 = .ok v) options records ∧
      (s.rem = bytes.length → last = .endOfOptions (s.cur + bytes.length) ∧ t.kind = .endOfOptions) ∧
      (s.rem ≠ bytes.length →
        last = .payloadMarker (s.cur + bytes.length + 1) ∧ t.kind = .payloadMarker ∧
          t.remainder = s.slice (s.cur + bytes.length + 1) (s.rem - bytes.length - 1))

/-- The typed round trip (44_reference_encoder.md R219): a `Block2`, a `ContentFormat` or a `UriPath` option, serialized from
its fields, standing at the cursor with a header byte that is not the payload marker, is given back by `STEP` with the same
fields in the registers. The layout of a `Block2` payload of two and three bytes is PRESUMED (log entry 13). -/
def Obligations.TypedFieldsParseBack : Prop :=
  ∀ (s : State) (frame : List Byte), s.cfg.wf → s.phase = .ready → frame.length ≤ s.rem →
    s.slice s.cur frame.length = frame → s.byteAt s.cur ≠ s.cfg.payloadMarker →
    (∀ (n : BitVec 20) (m : BitVec 1) (z : BitVec 3),
      serialize s.cfg.numBlock2.toNat s.prev.toNat (block2Payload n m z) = .ok frame →
      ∃ t : State, exec .step s = .next t ∧ t.kind = .option ∧ t.num = s.cfg.numBlock2 ∧ t.variant = .block2 ∧
        t.b2Num = n ∧ t.b2M = m ∧ t.b2Szx = z ∧ t.cfId = 0#8 ∧ t.cur = s.cur + frame.length) ∧
    (∀ (f : Byte) (payload : List Byte), contentFormatPayload s.cfg f = .ok payload →
      serialize s.cfg.numContentFormat.toNat s.prev.toNat payload = .ok frame →
      ∃ t : State, exec .step s = .next t ∧ t.kind = .option ∧ t.num = s.cfg.numContentFormat ∧
        t.variant = .contentFormat ∧ t.cfId = f ∧ t.b2Num = 0#20 ∧ t.b2M = 0#1 ∧ t.b2Szx = 0#3 ∧
        t.cur = s.cur + frame.length) ∧
    (∀ segment : List Byte,
      serialize s.cfg.numUriPath.toNat s.prev.toNat (uriPathPayload segment) = .ok frame →
      ∃ t : State, exec .step s = .next t ∧ t.kind = .option ∧ t.num = s.cfg.numUriPath ∧ t.variant = .uriPath ∧
        t.slice t.voff t.olen.toNat = segment ∧ t.cfId = 0#8 ∧ t.b2Num = 0#20 ∧ t.b2M = 0#1 ∧ t.b2Szx = 0#3 ∧
        t.cur = s.cur + frame.length)
end

