-- ==== Sys2Proof/Laws/Codec.lean ====
section
/-! SUPPORT. The bit fields of a header byte, the marker classes, and membership in the registry, each said once; then the
decoder on what the encoder writes. -/

namespace Sys2Proof

open Config

/-! ### Header bytes -/

theorem deltaMarker_toNat (h : Byte) : (deltaMarker h).toNat = h.toNat / 16 := by
  simp only [deltaMarker, BitVec.extractLsb'_toNat, Nat.shiftRight_eq_div_pow]
  have := h.isLt
  omega

theorem lengthMarker_toNat (h : Byte) : (lengthMarker h).toNat = h.toNat % 16 := by
  simp [lengthMarker, BitVec.extractLsb'_toNat]

theorem headerByte_toNat (dm lm : Nibble) : (headerByte dm lm).toNat = dm.toNat * 16 + lm.toNat := by
  have := dm.isLt
  have := lm.isLt
  simp only [headerByte, BitVec.toNat_append, Nat.shiftLeft_eq]
  rw [Nat.mul_comm dm.toNat, ← Nat.two_pow_add_eq_or_of_lt lm.isLt]

@[simp] theorem deltaMarker_headerByte (dm lm : Nibble) : deltaMarker (headerByte dm lm) = dm := by
  apply BitVec.eq_of_toNat_eq
  have := lm.isLt
  rw [deltaMarker_toNat, headerByte_toNat]
  omega

@[simp] theorem lengthMarker_headerByte (dm lm : Nibble) : lengthMarker (headerByte dm lm) = lm := by
  apply BitVec.eq_of_toNat_eq
  have := lm.isLt
  rw [lengthMarker_toNat, headerByte_toNat]
  omega

@[simp] theorem headerByte_markers (h : Byte) : headerByte (deltaMarker h) (lengthMarker h) = h := by
  apply BitVec.eq_of_toNat_eq
  rw [headerByte_toNat, deltaMarker_toNat, lengthMarker_toNat]
  omega

/-! ### Marker classes -/

theorem markerClass_literal {m : Nibble} : markerClass m = .literal ↔ m.toNat ≤ 12 := by
  unfold markerClass; split <;> [skip; split <;> [skip; split]] <;> simp_all

theorem markerClass_one {m : Nibble} : markerClass m = .one ↔ m = 13#4 := by
  rw [← BitVec.toNat_inj]; unfold markerClass; split <;> [skip; split <;> [skip; split]] <;> simp_all; omega

theorem markerClass_two {m : Nibble} : markerClass m = .two ↔ m = 14#4 := by
  rw [← BitVec.toNat_inj]; unfold markerClass; split <;> [skip; split <;> [skip; split]] <;> simp_all; omega

theorem markerClass_reserved {m : Nibble} : markerClass m = .reserved ↔ m = 15#4 := by
  have := m.isLt
  rw [← BitVec.toNat_inj]; unfold markerClass; split <;> [skip; split <;> [skip; split]] <;> simp_all <;> omega

@[simp] theorem markerClass_13 : markerClass 13#4 = .one := by decide
@[simp] theorem markerClass_14 : markerClass 14#4 = .two := by decide
@[simp] theorem markerClass_15 : markerClass 15#4 = .reserved := by decide

@[simp] theorem literalMarker_iff {m : Nibble} : literalMarker m = true ↔ markerClass m = .literal := by
  simp [literalMarker]

/-! ### Registry -/

/-- A sum is registered exactly when it is the number of a member; a sum above 65535 never is (42_value_decode.md R151). -/
theorem registered_iff {P : Params} {numx : Sum} :
    registered P numx = true ↔ ∃ r ∈ P.registry, r.toNat = numx.toNat := by
  simp only [registered, List.any_eq_true, beq_iff_eq]
  refine exists_congr fun r => and_congr_right fun _ => ?_
  rw [← BitVec.toNat_inj, BitVec.toNat_setWidth_of_le (by decide)]
  exact eq_comm

theorem not_registered_iff {P : Params} {numx : Sum} :
    registered P numx = false ↔ ∀ r ∈ P.registry, r.toNat ≠ numx.toNat := by
  rw [← Bool.not_eq_true, registered_iff]; push Not; rfl

@[simp] theorem registered_setWidth {P : Params} {num : OptNum} : registered P (num.setWidth 18) = true ↔ num ∈ P.registry := by
  rw [registered_iff, BitVec.toNat_setWidth_of_le (by decide)]
  exact ⟨fun ⟨r, hr, h⟩ => BitVec.eq_of_toNat_eq h ▸ hr, fun h => ⟨num, h, rfl⟩⟩

/-- A registered sum is the widening of its low 16 bits (42_value_decode.md R150: exact). -/
theorem registered_toNat {P : Params} {numx : Sum} (h : registered P numx = true) :
    (numx.setWidth 16).toNat = numx.toNat := by
  obtain ⟨r, -, hr⟩ := registered_iff.1 h
  have := r.isLt
  simp only [BitVec.toNat_setWidth]
  omega

/-! ### Well-formed headers decode as their form -/

theorem optionHeader_ne {P : Params} {dm lm : Nibble} (h : optionHeader P dm lm = true) :
    headerByte dm lm ≠ P.payloadMarker := by simpa [optionHeader] using h

/-- The form of an option header byte, by its two markers. -/
theorem decodeHeader_headerByte {P : Params} {dm lm : Nibble} (h : headerByte dm lm ≠ P.payloadMarker) :
    decodeHeader P (headerByte dm lm) = headerForm dm lm := by
  rw [decodeHeader, if_neg h, deltaMarker_headerByte, lengthMarker_headerByte]

@[simp] theorem decodeHeader_marker (P : Params) : decodeHeader P P.payloadMarker = .pmark := by simp [decodeHeader]

end Sys2Proof
end

