-- ==== Sys2Proof/Laws/State.lean ====
section
/-! SUPPORT. One lemma for each field under each named update of the state, all by definition, so that no proof unfolds a
record update. -/

namespace Sys2Proof.Machine

variable (s : State)

/-! ### writeByte -/

@[simp] theorem writeByte_cfg (a : Nat) (v : Byte) : (s.writeByte a v).cfg = s.cfg := rfl
@[simp] theorem writeByte_buf (a : Nat) (v : Byte) : (s.writeByte a v).buf = Memory.write s.buf a v := rfl
@[simp] theorem writeByte_phase (a : Nat) (v : Byte) : (s.writeByte a v).phase = s.phase := rfl
@[simp] theorem writeByte_kind (a : Nat) (v : Byte) : (s.writeByte a v).kind = s.kind := rfl
@[simp] theorem writeByte_err (a : Nat) (v : Byte) : (s.writeByte a v).err = s.err := rfl
@[simp] theorem writeByte_cur (a : Nat) (v : Byte) : (s.writeByte a v).cur = s.cur := rfl
@[simp] theorem writeByte_len (a : Nat) (v : Byte) : (s.writeByte a v).len = s.len := rfl
@[simp] theorem writeByte_prev (a : Nat) (v : Byte) : (s.writeByte a v).prev = s.prev := rfl
@[simp] theorem writeByte_num (a : Nat) (v : Byte) : (s.writeByte a v).num = s.num := rfl
@[simp] theorem writeByte_delta (a : Nat) (v : Byte) : (s.writeByte a v).delta = s.delta := rfl
@[simp] theorem writeByte_olen (a : Nat) (v : Byte) : (s.writeByte a v).olen = s.olen := rfl
@[simp] theorem writeByte_voff (a : Nat) (v : Byte) : (s.writeByte a v).voff = s.voff := rfl
@[simp] theorem writeByte_variant (a : Nat) (v : Byte) : (s.writeByte a v).variant = s.variant := rfl
@[simp] theorem writeByte_cfId (a : Nat) (v : Byte) : (s.writeByte a v).cfId = s.cfId := rfl
@[simp] theorem writeByte_b2Num (a : Nat) (v : Byte) : (s.writeByte a v).b2Num = s.b2Num := rfl
@[simp] theorem writeByte_b2M (a : Nat) (v : Byte) : (s.writeByte a v).b2M = s.b2M := rfl
@[simp] theorem writeByte_b2Szx (a : Nat) (v : Byte) : (s.writeByte a v).b2Szx = s.b2Szx := rfl
@[simp] theorem writeByte_out (a : Nat) (v : Byte) : (s.writeByte a v).out = s.out := rfl
@[simp] theorem writeByte_epoch (a : Nat) (v : Byte) : (s.writeByte a v).epoch = s.epoch := rfl
@[simp] theorem writeByte_inputs (a : Nat) (v : Byte) : (s.writeByte a v).inputs = s.inputs := rfl
@[simp] theorem writeByte_answer (a : Nat) (v : Byte) : (s.writeByte a v).answer = s.answer := rfl

/-! ### clearOption -/

@[simp] theorem clearOption_cfg : s.clearOption.cfg = s.cfg := rfl
@[simp] theorem clearOption_buf : s.clearOption.buf = s.buf := rfl
@[simp] theorem clearOption_phase : s.clearOption.phase = s.phase := rfl
@[simp] theorem clearOption_kind : s.clearOption.kind = s.kind := rfl
@[simp] theorem clearOption_err : s.clearOption.err = s.err := rfl
@[simp] theorem clearOption_cur : s.clearOption.cur = s.cur := rfl
@[simp] theorem clearOption_len : s.clearOption.len = s.len := rfl
@[simp] theorem clearOption_prev : s.clearOption.prev = s.prev := rfl
@[simp] theorem clearOption_num : s.clearOption.num = 0#16 := rfl
@[simp] theorem clearOption_delta : s.clearOption.delta = 0#17 := rfl
@[simp] theorem clearOption_olen : s.clearOption.olen = 0#17 := rfl
@[simp] theorem clearOption_voff : s.clearOption.voff = 0 := rfl
@[simp] theorem clearOption_variant : s.clearOption.variant = .none := rfl
@[simp] theorem clearOption_cfId : s.clearOption.cfId = 0#8 := rfl
@[simp] theorem clearOption_b2Num : s.clearOption.b2Num = 0#20 := rfl
@[simp] theorem clearOption_b2M : s.clearOption.b2M = 0#1 := rfl
@[simp] theorem clearOption_b2Szx : s.clearOption.b2Szx = 0#3 := rfl
@[simp] theorem clearOption_out : s.clearOption.out = s.out := rfl
@[simp] theorem clearOption_epoch : s.clearOption.epoch = s.epoch := rfl
@[simp] theorem clearOption_inputs : s.clearOption.inputs = s.inputs := rfl
@[simp] theorem clearOption_answer : s.clearOption.answer = s.answer := rfl

/-! ### emit -/

@[simp] theorem emit_cfg (r : Record) : (s.emit r).cfg = s.cfg := rfl
@[simp] theorem emit_buf (r : Record) : (s.emit r).buf = s.buf := rfl
@[simp] theorem emit_phase (r : Record) : (s.emit r).phase = s.phase := rfl
@[simp] theorem emit_kind (r : Record) : (s.emit r).kind = s.kind := rfl
@[simp] theorem emit_err (r : Record) : (s.emit r).err = s.err := rfl
@[simp] theorem emit_cur (r : Record) : (s.emit r).cur = s.cur := rfl
@[simp] theorem emit_len (r : Record) : (s.emit r).len = s.len := rfl
@[simp] theorem emit_prev (r : Record) : (s.emit r).prev = s.prev := rfl
@[simp] theorem emit_num (r : Record) : (s.emit r).num = s.num := rfl
@[simp] theorem emit_delta (r : Record) : (s.emit r).delta = s.delta := rfl
@[simp] theorem emit_olen (r : Record) : (s.emit r).olen = s.olen := rfl
@[simp] theorem emit_voff (r : Record) : (s.emit r).voff = s.voff := rfl
@[simp] theorem emit_variant (r : Record) : (s.emit r).variant = s.variant := rfl
@[simp] theorem emit_cfId (r : Record) : (s.emit r).cfId = s.cfId := rfl
@[simp] theorem emit_b2Num (r : Record) : (s.emit r).b2Num = s.b2Num := rfl
@[simp] theorem emit_b2M (r : Record) : (s.emit r).b2M = s.b2M := rfl
@[simp] theorem emit_b2Szx (r : Record) : (s.emit r).b2Szx = s.b2Szx := rfl
@[simp] theorem emit_out (r : Record) : (s.emit r).out = s.out ++ [r] := rfl
@[simp] theorem emit_epoch (r : Record) : (s.emit r).epoch = s.epoch := rfl
@[simp] theorem emit_inputs (r : Record) : (s.emit r).inputs = s.inputs := rfl
@[simp] theorem emit_answer (r : Record) : (s.emit r).answer = s.answer := rfl

/-! ### give -/

@[simp] theorem give_cfg (r : Answer) : (s.give r).cfg = s.cfg := rfl
@[simp] theorem give_buf (r : Answer) : (s.give r).buf = s.buf := rfl
@[simp] theorem give_phase (r : Answer) : (s.give r).phase = s.phase := rfl
@[simp] theorem give_kind (r : Answer) : (s.give r).kind = s.kind := rfl
@[simp] theorem give_err (r : Answer) : (s.give r).err = s.err := rfl
@[simp] theorem give_cur (r : Answer) : (s.give r).cur = s.cur := rfl
@[simp] theorem give_len (r : Answer) : (s.give r).len = s.len := rfl
@[simp] theorem give_prev (r : Answer) : (s.give r).prev = s.prev := rfl
@[simp] theorem give_num (r : Answer) : (s.give r).num = s.num := rfl
@[simp] theorem give_delta (r : Answer) : (s.give r).delta = s.delta := rfl
@[simp] theorem give_olen (r : Answer) : (s.give r).olen = s.olen := rfl
@[simp] theorem give_voff (r : Answer) : (s.give r).voff = s.voff := rfl
@[simp] theorem give_variant (r : Answer) : (s.give r).variant = s.variant := rfl
@[simp] theorem give_cfId (r : Answer) : (s.give r).cfId = s.cfId := rfl
@[simp] theorem give_b2Num (r : Answer) : (s.give r).b2Num = s.b2Num := rfl
@[simp] theorem give_b2M (r : Answer) : (s.give r).b2M = s.b2M := rfl
@[simp] theorem give_b2Szx (r : Answer) : (s.give r).b2Szx = s.b2Szx := rfl
@[simp] theorem give_out (r : Answer) : (s.give r).out = s.out := rfl
@[simp] theorem give_epoch (r : Answer) : (s.give r).epoch = s.epoch := rfl
@[simp] theorem give_inputs (r : Answer) : (s.give r).inputs = s.inputs := rfl
@[simp] theorem give_answer (r : Answer) : (s.give r).answer = r := rfl

/-! ### dropInput -/

@[simp] theorem dropInput_cfg (xs : List HostInput) : (s.dropInput xs).cfg = s.cfg := rfl
@[simp] theorem dropInput_buf (xs : List HostInput) : (s.dropInput xs).buf = s.buf := rfl
@[simp] theorem dropInput_phase (xs : List HostInput) : (s.dropInput xs).phase = s.phase := rfl
@[simp] theorem dropInput_kind (xs : List HostInput) : (s.dropInput xs).kind = s.kind := rfl
@[simp] theorem dropInput_err (xs : List HostInput) : (s.dropInput xs).err = s.err := rfl
@[simp] theorem dropInput_cur (xs : List HostInput) : (s.dropInput xs).cur = s.cur := rfl
@[simp] theorem dropInput_len (xs : List HostInput) : (s.dropInput xs).len = s.len := rfl
@[simp] theorem dropInput_prev (xs : List HostInput) : (s.dropInput xs).prev = s.prev := rfl
@[simp] theorem dropInput_num (xs : List HostInput) : (s.dropInput xs).num = s.num := rfl
@[simp] theorem dropInput_delta (xs : List HostInput) : (s.dropInput xs).delta = s.delta := rfl
@[simp] theorem dropInput_olen (xs : List HostInput) : (s.dropInput xs).olen = s.olen := rfl
@[simp] theorem dropInput_voff (xs : List HostInput) : (s.dropInput xs).voff = s.voff := rfl
@[simp] theorem dropInput_variant (xs : List HostInput) : (s.dropInput xs).variant = s.variant := rfl
@[simp] theorem dropInput_cfId (xs : List HostInput) : (s.dropInput xs).cfId = s.cfId := rfl
@[simp] theorem dropInput_b2Num (xs : List HostInput) : (s.dropInput xs).b2Num = s.b2Num := rfl
@[simp] theorem dropInput_b2M (xs : List HostInput) : (s.dropInput xs).b2M = s.b2M := rfl
@[simp] theorem dropInput_b2Szx (xs : List HostInput) : (s.dropInput xs).b2Szx = s.b2Szx := rfl
@[simp] theorem dropInput_out (xs : List HostInput) : (s.dropInput xs).out = s.out := rfl
@[simp] theorem dropInput_epoch (xs : List HostInput) : (s.dropInput xs).epoch = s.epoch := rfl
@[simp] theorem dropInput_inputs (xs : List HostInput) : (s.dropInput xs).inputs = xs := rfl
@[simp] theorem dropInput_answer (xs : List HostInput) : (s.dropInput xs).answer = s.answer := rfl

/-! ### faultEntry -/

@[simp] theorem faultEntry_cfg (e : Err) : (faultEntry e s).cfg = s.cfg := rfl
@[simp] theorem faultEntry_buf (e : Err) : (faultEntry e s).buf = s.buf := rfl
@[simp] theorem faultEntry_phase (e : Err) : (faultEntry e s).phase = .halt := rfl
@[simp] theorem faultEntry_kind (e : Err) : (faultEntry e s).kind = .fault := rfl
@[simp] theorem faultEntry_err (e : Err) : (faultEntry e s).err = e := rfl
@[simp] theorem faultEntry_cur (e : Err) : (faultEntry e s).cur = s.cur := rfl
@[simp] theorem faultEntry_len (e : Err) : (faultEntry e s).len = s.len := rfl
@[simp] theorem faultEntry_prev (e : Err) : (faultEntry e s).prev = s.prev := rfl
@[simp] theorem faultEntry_num (e : Err) : (faultEntry e s).num = 0#16 := rfl
@[simp] theorem faultEntry_delta (e : Err) : (faultEntry e s).delta = 0#17 := rfl
@[simp] theorem faultEntry_olen (e : Err) : (faultEntry e s).olen = 0#17 := rfl
@[simp] theorem faultEntry_voff (e : Err) : (faultEntry e s).voff = 0 := rfl
@[simp] theorem faultEntry_variant (e : Err) : (faultEntry e s).variant = .none := rfl
@[simp] theorem faultEntry_cfId (e : Err) : (faultEntry e s).cfId = 0#8 := rfl
@[simp] theorem faultEntry_b2Num (e : Err) : (faultEntry e s).b2Num = 0#20 := rfl
@[simp] theorem faultEntry_b2M (e : Err) : (faultEntry e s).b2M = 0#1 := rfl
@[simp] theorem faultEntry_b2Szx (e : Err) : (faultEntry e s).b2Szx = 0#3 := rfl
@[simp] theorem faultEntry_out (e : Err) : (faultEntry e s).out = s.out ++ [.fault e s.cur] := rfl
@[simp] theorem faultEntry_epoch (e : Err) : (faultEntry e s).epoch = s.epoch := rfl
@[simp] theorem faultEntry_inputs (e : Err) : (faultEntry e s).inputs = s.inputs := rfl
@[simp] theorem faultEntry_answer (e : Err) : (faultEntry e s).answer = s.answer := rfl

/-! ### resetRegisters -/

@[simp] theorem resetRegisters_cfg : (resetRegisters s).cfg = s.cfg := rfl
@[simp] theorem resetRegisters_buf : (resetRegisters s).buf = [] := rfl
@[simp] theorem resetRegisters_phase : (resetRegisters s).phase = .idle := rfl
@[simp] theorem resetRegisters_kind : (resetRegisters s).kind = .none := rfl
@[simp] theorem resetRegisters_err : (resetRegisters s).err = .none := rfl
@[simp] theorem resetRegisters_cur : (resetRegisters s).cur = 0 := rfl
@[simp] theorem resetRegisters_len : (resetRegisters s).len = 0 := rfl
@[simp] theorem resetRegisters_prev : (resetRegisters s).prev = 0#16 := rfl
@[simp] theorem resetRegisters_num : (resetRegisters s).num = 0#16 := rfl
@[simp] theorem resetRegisters_delta : (resetRegisters s).delta = 0#17 := rfl
@[simp] theorem resetRegisters_olen : (resetRegisters s).olen = 0#17 := rfl
@[simp] theorem resetRegisters_voff : (resetRegisters s).voff = 0 := rfl
@[simp] theorem resetRegisters_variant : (resetRegisters s).variant = .none := rfl
@[simp] theorem resetRegisters_cfId : (resetRegisters s).cfId = 0#8 := rfl
@[simp] theorem resetRegisters_b2Num : (resetRegisters s).b2Num = 0#20 := rfl
@[simp] theorem resetRegisters_b2M : (resetRegisters s).b2M = 0#1 := rfl
@[simp] theorem resetRegisters_b2Szx : (resetRegisters s).b2Szx = 0#3 := rfl
@[simp] theorem resetRegisters_out : (resetRegisters s).out = s.out := rfl
@[simp] theorem resetRegisters_epoch : (resetRegisters s).epoch = s.epoch + 1 := rfl
@[simp] theorem resetRegisters_inputs : (resetRegisters s).inputs = s.inputs := rfl
@[simp] theorem resetRegisters_answer : (resetRegisters s).answer = s.answer := rfl

/-! ### startScan -/

@[simp] theorem startScan_cfg (n : Nat) (q : OptNum) : (startScan n q s).cfg = s.cfg := rfl
@[simp] theorem startScan_buf (n : Nat) (q : OptNum) : (startScan n q s).buf = s.buf := rfl
@[simp] theorem startScan_phase (n : Nat) (q : OptNum) : (startScan n q s).phase = .ready := rfl
@[simp] theorem startScan_kind (n : Nat) (q : OptNum) : (startScan n q s).kind = .none := rfl
@[simp] theorem startScan_err (n : Nat) (q : OptNum) : (startScan n q s).err = .none := rfl
@[simp] theorem startScan_cur (n : Nat) (q : OptNum) : (startScan n q s).cur = 0 := rfl
@[simp] theorem startScan_len (n : Nat) (q : OptNum) : (startScan n q s).len = n := rfl
@[simp] theorem startScan_prev (n : Nat) (q : OptNum) : (startScan n q s).prev = q := rfl
@[simp] theorem startScan_num (n : Nat) (q : OptNum) : (startScan n q s).num = 0#16 := rfl
@[simp] theorem startScan_delta (n : Nat) (q : OptNum) : (startScan n q s).delta = 0#17 := rfl
@[simp] theorem startScan_olen (n : Nat) (q : OptNum) : (startScan n q s).olen = 0#17 := rfl
@[simp] theorem startScan_voff (n : Nat) (q : OptNum) : (startScan n q s).voff = 0 := rfl
@[simp] theorem startScan_variant (n : Nat) (q : OptNum) : (startScan n q s).variant = .none := rfl
@[simp] theorem startScan_cfId (n : Nat) (q : OptNum) : (startScan n q s).cfId = 0#8 := rfl
@[simp] theorem startScan_b2Num (n : Nat) (q : OptNum) : (startScan n q s).b2Num = 0#20 := rfl
@[simp] theorem startScan_b2M (n : Nat) (q : OptNum) : (startScan n q s).b2M = 0#1 := rfl
@[simp] theorem startScan_b2Szx (n : Nat) (q : OptNum) : (startScan n q s).b2Szx = 0#3 := rfl
@[simp] theorem startScan_out (n : Nat) (q : OptNum) : (startScan n q s).out = s.out := rfl
@[simp] theorem startScan_epoch (n : Nat) (q : OptNum) : (startScan n q s).epoch = s.epoch := rfl
@[simp] theorem startScan_inputs (n : Nat) (q : OptNum) : (startScan n q s).inputs = s.inputs := rfl
@[simp] theorem startScan_answer (n : Nat) (q : OptNum) : (startScan n q s).answer = s.answer := rfl

/-! ### endOfOptions -/

@[simp] theorem endOfOptions_cfg : (endOfOptions s).cfg = s.cfg := rfl
@[simp] theorem endOfOptions_buf : (endOfOptions s).buf = s.buf := rfl
@[simp] theorem endOfOptions_phase : (endOfOptions s).phase = .halt := rfl
@[simp] theorem endOfOptions_kind : (endOfOptions s).kind = .endOfOptions := rfl
@[simp] theorem endOfOptions_err : (endOfOptions s).err = .none := rfl
@[simp] theorem endOfOptions_cur : (endOfOptions s).cur = s.cur := rfl
@[simp] theorem endOfOptions_len : (endOfOptions s).len = s.len := rfl
@[simp] theorem endOfOptions_prev : (endOfOptions s).prev = s.prev := rfl
@[simp] theorem endOfOptions_num : (endOfOptions s).num = 0#16 := rfl
@[simp] theorem endOfOptions_delta : (endOfOptions s).delta = 0#17 := rfl
@[simp] theorem endOfOptions_olen : (endOfOptions s).olen = 0#17 := rfl
@[simp] theorem endOfOptions_voff : (endOfOptions s).voff = 0 := rfl
@[simp] theorem endOfOptions_variant : (endOfOptions s).variant = .none := rfl
@[simp] theorem endOfOptions_cfId : (endOfOptions s).cfId = 0#8 := rfl
@[simp] theorem endOfOptions_b2Num : (endOfOptions s).b2Num = 0#20 := rfl
@[simp] theorem endOfOptions_b2M : (endOfOptions s).b2M = 0#1 := rfl
@[simp] theorem endOfOptions_b2Szx : (endOfOptions s).b2Szx = 0#3 := rfl
@[simp] theorem endOfOptions_out : (endOfOptions s).out = s.out ++ [.endOfOptions s.cur] := rfl
@[simp] theorem endOfOptions_epoch : (endOfOptions s).epoch = s.epoch := rfl
@[simp] theorem endOfOptions_inputs : (endOfOptions s).inputs = s.inputs := rfl
@[simp] theorem endOfOptions_answer : (endOfOptions s).answer = s.answer := rfl

/-! ### payloadMarker -/

@[simp] theorem payloadMarker_cfg : (payloadMarker s).cfg = s.cfg := rfl
@[simp] theorem payloadMarker_buf : (payloadMarker s).buf = s.buf := rfl
@[simp] theorem payloadMarker_phase : (payloadMarker s).phase = .halt := rfl
@[simp] theorem payloadMarker_kind : (payloadMarker s).kind = .payloadMarker := rfl
@[simp] theorem payloadMarker_err : (payloadMarker s).err = .none := rfl
@[simp] theorem payloadMarker_cur : (payloadMarker s).cur = s.cur + 1 := rfl
@[simp] theorem payloadMarker_len : (payloadMarker s).len = s.len := rfl
@[simp] theorem payloadMarker_prev : (payloadMarker s).prev = s.prev := rfl
@[simp] theorem payloadMarker_num : (payloadMarker s).num = 0#16 := rfl
@[simp] theorem payloadMarker_delta : (payloadMarker s).delta = 0#17 := rfl
@[simp] theorem payloadMarker_olen : (payloadMarker s).olen = 0#17 := rfl
@[simp] theorem payloadMarker_voff : (payloadMarker s).voff = 0 := rfl
@[simp] theorem payloadMarker_variant : (payloadMarker s).variant = .none := rfl
@[simp] theorem payloadMarker_cfId : (payloadMarker s).cfId = 0#8 := rfl
@[simp] theorem payloadMarker_b2Num : (payloadMarker s).b2Num = 0#20 := rfl
@[simp] theorem payloadMarker_b2M : (payloadMarker s).b2M = 0#1 := rfl
@[simp] theorem payloadMarker_b2Szx : (payloadMarker s).b2Szx = 0#3 := rfl
@[simp] theorem payloadMarker_out : (payloadMarker s).out = s.out ++ [.payloadMarker (s.cur + 1)] := rfl
@[simp] theorem payloadMarker_epoch : (payloadMarker s).epoch = s.epoch := rfl
@[simp] theorem payloadMarker_inputs : (payloadMarker s).inputs = s.inputs := rfl
@[simp] theorem payloadMarker_answer : (payloadMarker s).answer = s.answer := rfl

/-! ### commit -/

@[simp] theorem commit_cfg (d l : Ext) (p : Nat) (t : Typed) : (commit d l p t s).cfg = s.cfg := rfl
@[simp] theorem commit_buf (d l : Ext) (p : Nat) (t : Typed) : (commit d l p t s).buf = s.buf := rfl
@[simp] theorem commit_phase (d l : Ext) (p : Nat) (t : Typed) : (commit d l p t s).phase = s.phase := rfl
@[simp] theorem commit_kind (d l : Ext) (p : Nat) (t : Typed) : (commit d l p t s).kind = .option := rfl
@[simp] theorem commit_err (d l : Ext) (p : Nat) (t : Typed) : (commit d l p t s).err = .none := rfl
@[simp] theorem commit_cur (d l : Ext) (p : Nat) (t : Typed) : (commit d l p t s).cur = p + l.toNat := rfl
@[simp] theorem commit_len (d l : Ext) (p : Nat) (t : Typed) : (commit d l p t s).len = s.len := rfl
@[simp] theorem commit_prev (d l : Ext) (p : Nat) (t : Typed) : (commit d l p t s).prev = (s.numx d).setWidth 16 := rfl
@[simp] theorem commit_num (d l : Ext) (p : Nat) (t : Typed) : (commit d l p t s).num = (s.numx d).setWidth 16 := rfl
@[simp] theorem commit_delta (d l : Ext) (p : Nat) (t : Typed) : (commit d l p t s).delta = d := rfl
@[simp] theorem commit_olen (d l : Ext) (p : Nat) (t : Typed) : (commit d l p t s).olen = l := rfl
@[simp] theorem commit_voff (d l : Ext) (p : Nat) (t : Typed) : (commit d l p t s).voff = p := rfl
@[simp] theorem commit_variant (d l : Ext) (p : Nat) (t : Typed) : (commit d l p t s).variant = t.variant := rfl
@[simp] theorem commit_cfId (d l : Ext) (p : Nat) (t : Typed) : (commit d l p t s).cfId = t.cfId := rfl
@[simp] theorem commit_b2Num (d l : Ext) (p : Nat) (t : Typed) : (commit d l p t s).b2Num = t.b2Num := rfl
@[simp] theorem commit_b2M (d l : Ext) (p : Nat) (t : Typed) : (commit d l p t s).b2M = t.b2M := rfl
@[simp] theorem commit_b2Szx (d l : Ext) (p : Nat) (t : Typed) : (commit d l p t s).b2Szx = t.b2Szx := rfl
@[simp] theorem commit_out (d l : Ext) (p : Nat) (t : Typed) : (commit d l p t s).out = s.out ++
      [.option ((s.numx d).setWidth 16) d l p t.variant t.cfId t.b2Num t.b2M t.b2Szx (p + l.toNat)] := rfl
@[simp] theorem commit_epoch (d l : Ext) (p : Nat) (t : Typed) : (commit d l p t s).epoch = s.epoch := rfl
@[simp] theorem commit_inputs (d l : Ext) (p : Nat) (t : Typed) : (commit d l p t s).inputs = s.inputs := rfl
@[simp] theorem commit_answer (d l : Ext) (p : Nat) (t : Typed) : (commit d l p t s).answer = s.answer := rfl

end Sys2Proof.Machine
end

