-- ==== Sys2Proof/Laws/Memory.lean ====
section
/-! SUPPORT. The option buffer: read after write, the canonical form is kept, and what the named updates of the state do to a
read of one byte. -/

namespace Sys2Proof.Machine

/-! ### The list of written bytes -/

/-- Reading the offset just written gives the byte, reading another gives what it gave before. -/
@[simp] theorem Memory.read?_write (m : Memory) (hm : Memory.wf m) (a b : Nat) (v : Byte) :
    Memory.read? (Memory.write m a v) b = if b = a then some v else Memory.read? m b := by
  induction m with
  | nil => simp [Memory.write, Memory.read?, eq_comm]
  | cons c m ih =>
    obtain ⟨hc, hm⟩ := List.pairwise_cons.1 hm
    simp only [Memory.write]
    split
    · by_cases h : b = a
      · simp [Memory.read?, h]
      · simp [Memory.read?, h, Ne.symm h]
    · split
      · rename_i h
        by_cases hb : b = a
        · simp [Memory.read?, hb]
        · simp [Memory.read?, hb, Ne.symm hb, ← h]
      · rename_i h₁ h₂
        simp only [Memory.read?, ih hm]
        by_cases hb : b = a
        · subst hb; simp [Ne.symm h₂]
        · simp [hb]

/-- The cells of a written memory are the new one and cells of the old. -/
theorem Memory.mem_write {m : Memory} {a : Nat} {v : Byte} {c : Host.Cell} (h : c ∈ Memory.write m a v) :
    c = (a, v) ∨ c ∈ m := by
  induction m with
  | nil => simpa [Memory.write] using h
  | cons d m ih =>
    simp only [Memory.write] at h
    split at h
    · simpa using h
    · split at h
      · rcases List.mem_cons.1 h with h | h
        · exact .inl h
        · exact .inr (List.mem_cons_of_mem _ h)
      · rcases List.mem_cons.1 h with h | h
        · exact .inr (h ▸ List.mem_cons_self)
        · exact (ih h).imp id (List.mem_cons_of_mem _)

/-- Writing keeps the canonical form. -/
theorem Memory.wf_write {m : Memory} (hm : Memory.wf m) (a : Nat) (v : Byte) : Memory.wf (Memory.write m a v) := by
  induction m with
  | nil => simp [Memory.write, Memory.wf]
  | cons c m ih =>
    obtain ⟨hc, hm⟩ := List.pairwise_cons.1 hm
    simp only [Memory.write]
    split
    · rename_i h
      refine List.pairwise_cons.2 ⟨fun d hd => ?_, List.pairwise_cons.2 ⟨hc, hm⟩⟩
      rcases List.mem_cons.1 hd with rfl | hd
      · exact h
      · exact h.trans (hc d hd)
    · split
      · rename_i h; subst h; exact List.pairwise_cons.2 ⟨hc, hm⟩
      · refine List.pairwise_cons.2 ⟨fun d hd => ?_, ih hm⟩
        rcases Memory.mem_write hd with rfl | hd
        · exact Nat.lt_of_le_of_ne (Nat.le_of_not_lt ‹_›) (Ne.symm ‹_›)
        · exact hc d hd

/-- Every memory operation keeps the canonical form: the empty memory has it, and the only operation keeps it. -/
theorem Memory.wf_nil : Memory.wf [] := List.Pairwise.nil

/-! ### Reading one byte of a state -/

/-- Two states with the same written bytes and the same epoch read the same. -/
theorem State.byteAt_congr {s t : State} (hb : s.buf = t.buf) (he : s.epoch = t.epoch) (a : Nat) :
    s.byteAt a = t.byteAt a := by
  simp [State.byteAt, hb, he]

theorem State.byteAt_writeByte (s : State) (hs : Memory.wf s.buf) (a b : Nat) (v : Byte) :
    (s.writeByte a v).byteAt b = if b = a then v else s.byteAt b := by
  simp only [State.byteAt, writeByte_buf, writeByte_epoch, Memory.read?_write s.buf hs]
  split <;> rfl

section
variable (s : State) (a : Nat)

@[simp] theorem State.byteAt_give (r : Answer) : (s.give r).byteAt a = s.byteAt a := rfl
@[simp] theorem State.byteAt_emit (r : Record) : (s.emit r).byteAt a = s.byteAt a := rfl
@[simp] theorem State.byteAt_dropInput (xs : List HostInput) : (s.dropInput xs).byteAt a = s.byteAt a := rfl
@[simp] theorem State.byteAt_clearOption : s.clearOption.byteAt a = s.byteAt a := rfl
@[simp] theorem State.byteAt_faultEntry (e : Err) : (faultEntry e s).byteAt a = s.byteAt a := rfl
@[simp] theorem State.byteAt_startScan (n : Nat) (q : OptNum) : (startScan n q s).byteAt a = s.byteAt a := rfl
@[simp] theorem State.byteAt_endOfOptions : (endOfOptions s).byteAt a = s.byteAt a := rfl
@[simp] theorem State.byteAt_payloadMarker : (payloadMarker s).byteAt a = s.byteAt a := rfl
@[simp] theorem State.byteAt_commit (d l : Ext) (p : Nat) (t : Typed) : (commit d l p t s).byteAt a = s.byteAt a := rfl

end

/-! ### Slices -/

@[simp] theorem State.length_slice (s : State) (a n : Nat) : (s.slice a n).length = n := by simp [State.slice]

theorem State.slice_succ (s : State) (a n : Nat) : s.slice a (n + 1) = s.byteAt a :: s.slice (a + 1) n := by
  simp [State.slice, List.range_succ_eq_map, Function.comp_def, Nat.add_assoc, Nat.add_comm 1]

theorem State.slice_add (s : State) (a m n : Nat) : s.slice a (m + n) = s.slice a m ++ s.slice (a + m) n := by
  induction m generalizing a with
  | zero => simp [State.slice]
  | succ m ih =>
    rw [Nat.add_right_comm, State.slice_succ, ih, State.slice_succ, Nat.add_right_comm a 1 m]
    rfl

theorem State.slice_congr {s t : State} {a n : Nat} (h : ∀ k < n, s.byteAt (a + k) = t.byteAt (a + k)) :
    s.slice a n = t.slice a n := by
  simp only [State.slice]
  exact List.map_congr_left fun k hk => h k (List.mem_range.1 hk)

end Sys2Proof.Machine
end

