-- ==== Sys2Proof/Laws/Operands.lean ====
section
/-! SUPPORT. The extended-field decoder, said once as numbers: what it answers, in which range, and that it reads nothing but
the bytes of its own field. -/

namespace Sys2Proof.Machine

theorem setWidth_eq_ofNat {k w : Nat} (x : BitVec k) : x.setWidth w = BitVec.ofNat w x.toNat := by
  apply BitVec.eq_of_toNat_eq; simp

theorem be16_toNat (hi lo : Byte) : (be16 hi lo).toNat = hi.toNat * 256 + lo.toNat := by
  simp only [be16, BitVec.toNat_append, Nat.shiftLeft_eq]
  rw [Nat.mul_comm hi.toNat, ← Nat.two_pow_add_eq_or_of_lt lo.isLt]

theorem be24_toNat (a b c : Byte) : (be24 a b c).toNat = a.toNat * 65536 + b.toNat * 256 + c.toNat := by
  have h := be16_toNat a b
  simp only [be16] at h
  simp only [be24, BitVec.toNat_append (x := a ++ b), Nat.shiftLeft_eq, h]
  rw [Nat.mul_comm, ← Nat.two_pow_add_eq_or_of_lt c.isLt]
  omega

variable (s : State)

theorem State.be16At_toNat (a : Nat) : (s.be16At a).toNat = (s.byteAt a).toNat * 256 + (s.byteAt (a + 1)).toNat :=
  be16_toNat _ _

theorem State.be24At_toNat (a : Nat) :
    (s.be24At a).toNat = (s.byteAt a).toNat * 65536 + (s.byteAt (a + 1)).toNat * 256 + (s.byteAt (a + 2)).toNat :=
  be24_toNat _ _ _

/-! ### The four forms as numbers -/

theorem xdecN_eq (m : Nibble) (p : Nat) : xdecN m p = .ok (BitVec.ofNat 17 m.toNat, p) := by
  rw [xdecN, setWidth_eq_ofNat]

theorem xdec1_eq (p : Nat) :
    xdec1 s p =
      if s.len - p < 1 then .error .truncatedInput else .ok (BitVec.ofNat 17 ((s.byteAt p).toNat + 13), p + 1) := by
  rw [xdec1, setWidth_eq_ofNat, ← BitVec.ofNat_add]

theorem xdec2_eq (p : Nat) :
    xdec2 s p =
      if s.len - p < 2 then .error .truncatedInput
      else .ok (BitVec.ofNat 17 ((s.byteAt p).toNat * 256 + (s.byteAt (p + 1)).toNat + 269), p + 2) := by
  rw [xdec2, setWidth_eq_ofNat, State.be16At_toNat, ← BitVec.ofNat_add]

@[simp] theorem xdec_13 (p : Nat) : xdec s 13#4 p = xdec1 s p := by simp [xdec]
@[simp] theorem xdec_14 (p : Nat) : xdec s 14#4 p = xdec2 s p := by simp [xdec]
@[simp] theorem xdec_15 (p : Nat) : xdec s 15#4 p = xdecX := by simp [xdec]
theorem xdec_literal {m : Nibble} (h : markerClass m = .literal) (p : Nat) : xdec s m p = xdecN m p := by simp [xdec, h]

/-! ### One equation for the three classes -/

/-- The value of an extended field whose extension bytes begin at `q` (30_encoding.md R73). -/
def State.fieldValue (s : State) (m : Nibble) (q : Nat) : Nat :=
  match markerClass m with
  | .literal => m.toNat
  | .one => (s.byteAt q).toNat + 13
  | .two => (s.byteAt q).toNat * 256 + (s.byteAt (q + 1)).toNat + 269
  | .reserved => 0

/-- A marker is literal or one of the three others. -/
theorem markerClass_cases (m : Nibble) : markerClass m = .literal ∨ m = 13#4 ∨ m = 14#4 ∨ m = 15#4 := by
  rw [← markerClass_one, ← markerClass_two, ← markerClass_reserved]
  cases markerClass m <;> simp

theorem State.fieldValue_le (m : Nibble) (q : Nat) : s.fieldValue m q ≤ 65804 := by
  have := m.isLt
  have := (s.byteAt q).isLt
  have := (s.byteAt (q + 1)).isLt
  unfold State.fieldValue
  split <;> omega

/-- `XDEC` of a marker that is not reserved: the bounds test, then the value (40_extended_field.md R101 to R103). -/
theorem xdec_eq {m : Nibble} (hm : m ≠ 15#4) (p : Nat) :
    xdec s m p =
      if s.len - p < (markerClass m).extBytes then .error .truncatedInput
      else .ok (BitVec.ofNat 17 (s.fieldValue m p), p + (markerClass m).extBytes) := by
  rcases markerClass_cases m with h | rfl | rfl | rfl
  · simp [xdec, h, xdecN_eq, State.fieldValue, MarkerClass.extBytes]
  · simp [xdec1_eq, State.fieldValue, MarkerClass.extBytes]
  · simp [xdec2_eq, State.fieldValue, MarkerClass.extBytes]
  · exact absurd rfl hm

/-! ### What a decoded field can be -/

/-- Everything `XDEC` can answer without a fault: the class of the marker fixes how many bytes are consumed, they lie inside
the window, and the value is in the class's range (40_extended_field.md R106). -/
theorem xdec_ok {m : Nibble} {p q : Nat} {v : Ext} (h : xdec s m p = .ok (v, q)) :
    (m.toNat ≤ 12 ∧ v.toNat = m.toNat ∧ q = p) ∨
    (m = 13#4 ∧ v.toNat = (s.byteAt p).toNat + 13 ∧ q = p + 1 ∧ 1 ≤ s.len - p) ∨
    (m = 14#4 ∧ v.toNat = (s.byteAt p).toNat * 256 + (s.byteAt (p + 1)).toNat + 269 ∧ q = p + 2 ∧ 2 ≤ s.len - p) := by
  have b0 := (s.byteAt p).isLt
  have b1 := (s.byteAt (p + 1)).isLt
  unfold xdec at h
  split at h
  · rename_i hm
    have := m.isLt
    rw [xdecN_eq] at h
    obtain ⟨rfl, rfl⟩ := Prod.mk.inj (Except.ok.inj h)
    exact .inl ⟨markerClass_literal.1 hm, by simp; omega, rfl⟩
  · rename_i hm
    rw [xdec1_eq] at h
    split at h
    · cases h
    · obtain ⟨rfl, rfl⟩ := Prod.mk.inj (Except.ok.inj h)
      exact .inr (.inl ⟨markerClass_one.1 hm, by rw [BitVec.toNat_ofNat]; omega, rfl, by omega⟩)
  · rename_i hm
    rw [xdec2_eq] at h
    split at h
    · cases h
    · obtain ⟨rfl, rfl⟩ := Prod.mk.inj (Except.ok.inj h)
      exact .inr (.inr ⟨markerClass_two.1 hm, by rw [BitVec.toNat_ofNat]; omega, rfl, by omega⟩)
  · cases h

/-- The two faults of `XDEC`, each where 40_extended_field.md R102 to R104 raise it. -/
theorem xdec_error {m : Nibble} {p : Nat} {e : Err} (h : xdec s m p = .error e) :
    (m = 13#4 ∧ s.len - p < 1 ∧ e = .truncatedInput) ∨ (m = 14#4 ∧ s.len - p < 2 ∧ e = .truncatedInput) ∨
    (m = 15#4 ∧ e = .malformedHeader) := by
  unfold xdec at h
  split at h
  · cases h
  · rename_i hm
    unfold xdec1 at h
    split at h
    · exact .inl ⟨markerClass_one.1 hm, ‹_›, (Except.error.inj h).symm⟩
    · cases h
  · rename_i hm
    unfold xdec2 at h
    split at h
    · exact .inr (.inl ⟨markerClass_two.1 hm, ‹_›, (Except.error.inj h).symm⟩)
    · cases h
  · rename_i hm
    exact .inr (.inr ⟨markerClass_reserved.1 hm, (Except.error.inj h).symm⟩)

/-- The bounds of a decoded field in one fact. -/
theorem xdec_bounds {m : Nibble} {p q : Nat} {v : Ext} (h : xdec s m p = .ok (v, q)) :
    v.toNat ≤ 65804 ∧ p ≤ q ∧ (p ≤ s.len → q ≤ s.len) := by
  have b0 := (s.byteAt p).isLt
  have b1 := (s.byteAt (p + 1)).isLt
  rcases xdec_ok s h with ⟨-, h₁, rfl⟩ | ⟨-, h₁, rfl, h₂⟩ | ⟨-, h₁, rfl, h₂⟩ <;> omega

/-- `XDEC` reads nothing outside the window: two states with the same `LEN` and the same bytes from `p` on decode alike. -/
theorem xdec_congr {s t : State} (hl : s.len = t.len) {p : Nat} (hb : ∀ a, p ≤ a → a < s.len → s.byteAt a = t.byteAt a)
    (m : Nibble) : xdec s m p = xdec t m p := by
  have h1 : xdec1 s p = xdec1 t p := by
    rw [xdec1_eq, xdec1_eq, ← hl]
    split
    · rfl
    · rw [hb p (by omega) (by omega)]
  have h2 : xdec2 s p = xdec2 t p := by
    rw [xdec2_eq, xdec2_eq, ← hl]
    split
    · rfl
    · rw [hb p (by omega) (by omega), hb (p + 1) (by omega) (by omega)]
  simp only [xdec, h1, h2]

end Sys2Proof.Machine
end

