-- ==== Sys2Proof/Laws/Payload.lean ====
section
/-! SUPPORT. `VDEC` is the reference construction on the payload's bytes, and the payload form a number and a length select
has the result `VDEC` has. -/

namespace Sys2Proof.Machine

open Sys2Proof.Config Sys2Proof.Reference

/-! ### Typed fields as numbers -/

/-- The bit fields of a `Block2` payload read as a number (42_value_decode.md R155). -/
theorem block2Typed_eq (w : Nat) (n : BitVec 20) (f : BitVec 4) (hn : n.toNat = w / 16 % 2 ^ 20) (hf : f.toNat = w % 16) :
    block2Typed n f = block2Fields w := by
  simp only [block2Typed, block2Fields, Typed.mk.injEq, true_and]
  refine ⟨?_, ?_, ?_⟩ <;> apply BitVec.eq_of_toNat_eq
  · simp [hn]
  · simp only [BitVec.extractLsb'_toNat, hf, Nat.shiftRight_eq_div_pow, BitVec.toNat_ofNat]; omega
  · simp only [BitVec.extractLsb'_toNat, hf, Nat.shiftRight_eq_div_pow, BitVec.toNat_ofNat]; omega

variable (s : State)

theorem vdecBlock21_eq (p : Nat) : vdecBlock21 s p = .ok (block2Fields (s.byteAt p).toNat) := by
  have := (s.byteAt p).isLt
  refine congrArg Except.ok (block2Typed_eq _ _ _ ?_ ?_)
  · simp only [BitVec.toNat_setWidth, BitVec.extractLsb'_toNat, Nat.shiftRight_eq_div_pow]; omega
  · simp only [BitVec.extractLsb'_toNat, Nat.shiftRight_eq_div_pow]; omega

theorem vdecBlock22_eq (p : Nat) :
    vdecBlock22 s p = .ok (block2Fields ((s.byteAt p).toNat * 256 + (s.byteAt (p + 1)).toNat)) := by
  have := (s.be16At p).isLt
  rw [← State.be16At_toNat]
  refine congrArg Except.ok (block2Typed_eq _ _ _ ?_ ?_)
  · simp only [BitVec.toNat_setWidth, BitVec.extractLsb'_toNat, Nat.shiftRight_eq_div_pow]; omega
  · simp only [BitVec.extractLsb'_toNat, Nat.shiftRight_eq_div_pow]; omega

theorem vdecBlock23_eq (p : Nat) :
    vdecBlock23 s p =
      .ok (block2Fields ((s.byteAt p).toNat * 65536 + (s.byteAt (p + 1)).toNat * 256 + (s.byteAt (p + 2)).toNat)) := by
  have := (s.be24At p).isLt
  rw [← State.be24At_toNat]
  refine congrArg Except.ok (block2Typed_eq _ _ _ ?_ ?_)
  · simp only [BitVec.extractLsb'_toNat, Nat.shiftRight_eq_div_pow]
  · simp only [BitVec.extractLsb'_toNat, Nat.shiftRight_eq_div_pow]; omega

/-! ### Short payloads as lists -/

theorem State.slice_zero (a : Nat) : s.slice a 0 = [] := rfl
theorem State.slice_one (a : Nat) : s.slice a 1 = [s.byteAt a] := by simp [State.slice]
theorem State.slice_two (a : Nat) : s.slice a 2 = [s.byteAt a, s.byteAt (a + 1)] := by
  simp [State.slice, List.range_succ]
theorem State.slice_three (a : Nat) : s.slice a 3 = [s.byteAt a, s.byteAt (a + 1), s.byteAt (a + 2)] := by
  simp [State.slice, List.range_succ]

theorem State.slice_long (a n : Nat) : ∃ r, s.slice a (n + 4) = s.byteAt a :: s.byteAt (a + 1) :: s.byteAt (a + 2) ::
    s.byteAt (a + 3) :: r := by
  simp only [State.slice_succ, Nat.add_assoc]; exact ⟨_, rfl⟩

theorem construct_contentFormat (p : Nat) (l : Ext) :
    vdecContentFormat s p l =
      match s.slice p l.toNat with
      | [f] => if f ∈ s.cfg.contentFormats then .ok ⟨.contentFormat, f, 0#20, 0#1, 0#3⟩ else .error .invalidValue
      | _ => .error .malformedHeader := by
  unfold vdecContentFormat
  by_cases h : l = 1#17
  · subst h; simp [State.slice_one]
  · rw [if_pos h]
    have h' : l.toNat ≠ 1 := fun hc => h (BitVec.eq_of_toNat_eq hc)
    have := State.length_slice s p l.toNat
    split
    · rename_i heq; rw [heq] at this; simp at this; omega
    · rfl

theorem construct_block2 (p : Nat) (l : Ext) :
    vdecBlock2 s p l =
      match s.slice p l.toNat with
      | [a] => .ok (block2Fields a.toNat)
      | [a, b] => .ok (block2Fields (a.toNat * 256 + b.toNat))
      | [a, b, c] => .ok (block2Fields (a.toNat * 65536 + b.toNat * 256 + c.toNat))
      | _ => .error .malformedHeader := by
  unfold vdecBlock2
  by_cases h1 : l = 1#17
  · subst h1; simp [State.slice_one, vdecBlock21_eq]
  by_cases h2 : l = 2#17
  · subst h2; simp [State.slice_two, vdecBlock22_eq]
  by_cases h3 : l = 3#17
  · subst h3; simp [State.slice_three, vdecBlock23_eq]
  rw [if_neg h1, if_neg h2, if_neg h3]
  have h1 : l.toNat ≠ 1 := fun hc => h1 (BitVec.eq_of_toNat_eq hc)
  have h2 : l.toNat ≠ 2 := fun hc => h2 (BitVec.eq_of_toNat_eq hc)
  have h3 : l.toNat ≠ 3 := fun hc => h3 (BitVec.eq_of_toNat_eq hc)
  have := State.length_slice s p l.toNat
  split <;> first | rfl | (rename_i heq; rw [heq] at this; simp at this; omega)

/-! ### `VDEC` is the reference construction -/

theorem num_eq_iff {numx : Sum} (h : registered s.cfg numx = true) (n : OptNum) :
    numx.setWidth 16 = n ↔ numx.toNat = n.toNat := by
  rw [← BitVec.toNat_inj, registered_toNat h]

/-- The registry check over numbers (42_value_decode.md R151). -/
theorem known_eq_false {P : Params} {n : Nat} : known P n = false ↔ ∀ r ∈ P.registry, r.toNat ≠ n := by
  simp [known]

/-- `VDEC` on a complete payload is source steps 9 and 10 on its bytes (42_value_decode.md R150, R161). -/
theorem vdec_eq_construct (numx : Sum) (p : Nat) (l : Ext) :
    vdec s numx p l = construct s.cfg numx.toNat (s.slice p l.toNat) := by
  unfold vdec construct
  by_cases hr : registered s.cfg numx = false
  · simp only [if_pos hr, if_pos (known_eq_false.2 (not_registered_iff.1 hr)), vdecUnknown]
  · have ht : registered s.cfg numx = true := by simpa using hr
    rw [if_neg hr, if_neg fun hc => hr (not_registered_iff.2 (known_eq_false.1 hc))]
    simp only [num_eq_iff s ht, construct_contentFormat, construct_block2]
    rfl

/-- The form a number and a length select has the result of `VDEC`. -/
theorem vdec_eq_form (numx : Sum) (p : Nat) (l : Ext) :
    vdec s numx p l =
      match decodePayload s.cfg numx p l with
      | .unknown _ => vdecUnknown
      | .uriPath _ _ => vdecUriPath
      | .contentFormat p l => vdecContentFormat s p l
      | .block21 p => vdecBlock21 s p
      | .block22 p => vdecBlock22 s p
      | .block23 p => vdecBlock23 s p
      | .opaqueOpt _ _ _ => vdecOpaque
      | .untypedStrict _ _ _ => vdecUntypedStrict
      | _ => vdecBlock2BadLen := by
  unfold vdec decodePayload vdecBlock2 decodeBlock2
  by_cases h0 : registered s.cfg numx = false
  · simp only [if_pos h0]
  by_cases h1 : numx.setWidth 16 = s.cfg.numUriPath
  · simp only [if_neg h0, if_pos h1]
  by_cases h2 : numx.setWidth 16 = s.cfg.numContentFormat
  · simp only [if_neg h0, if_neg h1, if_pos h2]
  by_cases h3 : numx.setWidth 16 = s.cfg.numBlock2
  · simp only [if_neg h0, if_neg h1, if_neg h2, if_pos h3]
    by_cases k1 : l = 1#17
    · simp only [if_pos k1]
    by_cases k2 : l = 2#17
    · simp only [if_neg k1, if_pos k2]
    by_cases k3 : l = 3#17
    · simp only [if_neg k1, if_neg k2, if_pos k3]
    · simp only [if_neg k1, if_neg k2, if_neg k3]
  · simp only [if_neg h0, if_neg h1, if_neg h2, if_neg h3]
    cases s.cfg.untypedPolicy <;> rfl

/-- The reads of `VDEC` stay inside the payload: two states with the same parameters and the same payload agree. -/
theorem vdec_congr {s t : State} (hc : s.cfg = t.cfg) {numx : Sum} {p : Nat} {l : Ext}
    (hb : s.slice p l.toNat = t.slice p l.toNat) : vdec s numx p l = vdec t numx p l := by
  rw [vdec_eq_construct, vdec_eq_construct, hc, hb]

/-! ### What a construction can be -/

/-- Everything `VDEC` can answer: a registered number, a variant, and only the fields of that variant. -/
theorem vdec_ok {numx : Sum} {p : Nat} {l : Ext} {v : Typed} (h : vdec s numx p l = .ok v) :
    registered s.cfg numx = true ∧ v.variant ≠ .none ∧
      (v.variant = .contentFormat → v.cfId ∈ s.cfg.contentFormats) ∧ (v.variant ≠ .contentFormat → v.cfId = 0#8) ∧
      (v.variant ≠ .block2 → v.b2Num = 0#20 ∧ v.b2M = 0#1 ∧ v.b2Szx = 0#3) := by
  rw [vdec_eq_form] at h
  have hr : registered s.cfg numx = true := by
    by_contra hc
    simp [decodePayload, vdecUnknown, Bool.not_eq_true _ ▸ hc] at h
  refine ⟨hr, ?_⟩
  split at h
  · cases h
  · cases h; simp [plainVariant]
  · unfold vdecContentFormat at h
    split at h
    · cases h
    · split at h
      · cases h; simpa
      · cases h
  · cases h; simp [block2Typed]
  · cases h; simp [block2Typed]
  · cases h; simp [block2Typed]
  · cases h; simp [plainVariant]
  · cases h
  · cases h

/-- The faults of `VDEC`. -/
theorem vdec_error {numx : Sum} {p : Nat} {l : Ext} {e : Err} (h : vdec s numx p l = .error e) :
    e = .malformedHeader ∨ e = .unknownOption ∨ e = .invalidValue := by
  rw [vdec_eq_form] at h
  split at h
  · cases h; simp
  · cases h
  · unfold vdecContentFormat at h
    split at h
    · cases h; simp
    · split at h <;> cases h; simp
  · cases h
  · cases h
  · cases h
  · cases h
  · cases h; simp
  · cases h; simp

end Sys2Proof.Machine
end

