-- ==== Sys2Proof/Laws/Frame.lean ====
section
/-! SUPPORT. One step of the frame parser, said once: every outcome of `frameStep` is the end of the options, the payload
marker, fault entry, or the commit of a frame that lies wholly inside the window; and the meaning of the form that stands at
the cursor is that step. -/

namespace Sys2Proof.Machine

open Sys2Proof.Config

variable (s : State)

/-! ### The sum -/

/-- The 18-bit sum of a decoded delta never wraps (41_frame_parse.md R139). -/
theorem numx_toNat {d : Ext} (h : d.toNat ≤ 65804) : (s.numx d).toNat = s.prev.toNat + d.toNat := by
  have := s.prev.isLt
  have := d.isLt
  rw [State.numx, BitVec.toNat_add, BitVec.toNat_setWidth_of_le (by decide), BitVec.toNat_setWidth_of_le (by decide)]
  omega

/-! ### Everything a step can do -/

/-- What is known of a frame that a step accepts: where its fields and payload lie, and what its number and variant are. -/
structure Accepted (d l : Ext) (p : Nat) (v : Typed) : Prop where
  delta_le : d.toNat ≤ 65804
  length_le : l.toNat ≤ 65804
  after_header : s.cur < p
  inside : p + l.toNat ≤ s.len
  constructed : vdec s (s.numx d) p l = .ok v

/-- The part of a step after both extended fields. -/
theorem finishOption_cases (d l : Ext) (p : Nat) :
    (s.len - p < l.toNat ∧ finishOption d l p s = faultEntry .truncatedInput s) ∨
    (∃ e, ¬ s.len - p < l.toNat ∧ vdec s (s.numx d) p l = .error e ∧ finishOption d l p s = faultEntry e s) ∨
    (∃ v, ¬ s.len - p < l.toNat ∧ vdec s (s.numx d) p l = .ok v ∧ finishOption d l p s = commit d l p v s) := by
  unfold finishOption
  split
  · exact .inl ⟨‹_›, rfl⟩
  · split
    · exact .inr (.inl ⟨_, ‹_›, ‹_›, rfl⟩)
    · exact .inr (.inr ⟨_, ‹_›, ‹_›, rfl⟩)

/-- A fault the hardware can raise (60_exceptions.md R231). -/
abbrev Err.raised (e : Err) : Prop :=
  e = .truncatedInput ∨ e = .malformedHeader ∨ e = .unknownOption ∨ e = .invalidValue

theorem xdec_error_raised {m : Nibble} {p : Nat} {e : Err} (h : xdec s m p = .error e) : e.raised := by
  rcases xdec_error s h with ⟨-, -, rfl⟩ | ⟨-, -, rfl⟩ | ⟨-, rfl⟩ <;> simp [Err.raised]

theorem vdec_error_raised {numx : Sum} {p : Nat} {l : Ext} {e : Err} (h : vdec s numx p l = .error e) : e.raised := by
  rcases vdec_error s h with rfl | rfl | rfl <;> simp [Err.raised]

/-- Everything an option header can lead to: fault entry, or the commit of an accepted frame. -/
theorem optionFrame_cases (hr : s.rem ≠ 0) (dm lm : Nibble) :
    (∃ e, e.raised ∧ optionFrame (xdec s dm) (xdec s lm) s = faultEntry e s) ∨
    (∃ d l p v, Accepted s d l p v ∧ optionFrame (xdec s dm) (xdec s lm) s = commit d l p v s) := by
  have hc : s.cur + 1 ≤ s.len := by unfold State.rem at hr; omega
  unfold optionFrame
  split
  · exact .inl ⟨_, xdec_error_raised s ‹_›, rfl⟩
  · rename_i d p1 h1
    split
    · exact .inl ⟨_, xdec_error_raised s ‹_›, rfl⟩
    · rename_i l p2 h2
      obtain ⟨hd, hp1, hw1⟩ := xdec_bounds s h1
      obtain ⟨hl, hp2, hw2⟩ := xdec_bounds s h2
      rcases finishOption_cases s d l p2 with ⟨-, h⟩ | ⟨e, -, he, h⟩ | ⟨v, hn, hv, h⟩
      · exact .inl ⟨_, .inl rfl, h⟩
      · exact .inl ⟨e, vdec_error_raised s he, h⟩
      · exact .inr ⟨d, l, p2, v, ⟨hd, hl, by omega, by have := hw2 (hw1 hc); omega, hv⟩, h⟩

/-- Everything a step can do (41_frame_parse.md R120). -/
theorem frameStep_cases :
    (s.rem = 0 ∧ frameStep s = endOfOptions s) ∨
    (s.rem ≠ 0 ∧ s.byteAt s.cur = s.cfg.payloadMarker ∧ frameStep s = payloadMarker s) ∨
    (∃ e, s.rem ≠ 0 ∧ s.byteAt s.cur ≠ s.cfg.payloadMarker ∧ e.raised ∧ frameStep s = faultEntry e s) ∨
    (∃ d l p v, s.rem ≠ 0 ∧ s.byteAt s.cur ≠ s.cfg.payloadMarker ∧ Accepted s d l p v ∧
      frameStep s = commit d l p v s) := by
  unfold frameStep
  split
  · exact .inl ⟨‹_›, rfl⟩
  · rename_i hr
    simp only
    split
    · exact .inr (.inl ⟨hr, ‹_›, rfl⟩)
    · rename_i hm
      rcases optionFrame_cases s hr (deltaMarker (s.byteAt s.cur)) (lengthMarker (s.byteAt s.cur)) with
        ⟨e, he, h⟩ | ⟨d, l, p, v, ha, h⟩
      · exact .inr (.inr (.inl ⟨e, hr, hm, he, h⟩))
      · exact .inr (.inr (.inr ⟨d, l, p, v, hr, hm, ha, h⟩))

/-! ### What every step leaves alone -/

/-- The fields no step writes. -/
theorem frameStep_frame :
    (frameStep s).len = s.len ∧ (frameStep s).buf = s.buf ∧ (frameStep s).cfg = s.cfg ∧ (frameStep s).epoch = s.epoch ∧
      (frameStep s).inputs = s.inputs ∧ (frameStep s).answer = s.answer := by
  rcases frameStep_cases s with ⟨-, h⟩ | ⟨-, -, h⟩ | ⟨e, -, -, -, h⟩ | ⟨d, l, p, v, -, -, -, h⟩ <;> simp [h]

@[simp] theorem frameStep_len : (frameStep s).len = s.len := (frameStep_frame s).1
@[simp] theorem frameStep_buf : (frameStep s).buf = s.buf := (frameStep_frame s).2.1
@[simp] theorem frameStep_cfg : (frameStep s).cfg = s.cfg := (frameStep_frame s).2.2.1
@[simp] theorem frameStep_epoch : (frameStep s).epoch = s.epoch := (frameStep_frame s).2.2.2.1
@[simp] theorem frameStep_inputs : (frameStep s).inputs = s.inputs := (frameStep_frame s).2.2.2.2.1
@[simp] theorem frameStep_answer : (frameStep s).answer = s.answer := (frameStep_frame s).2.2.2.2.2

@[simp] theorem byteAt_frameStep (a : Nat) : (frameStep s).byteAt a = s.byteAt a :=
  State.byteAt_congr (frameStep_buf s) (frameStep_epoch s) a

/-- A step emits exactly one record (43_commands_scanner.md R186). -/
theorem frameStep_out : ∃ r, (frameStep s).out = s.out ++ [r] := by
  rcases frameStep_cases s with ⟨-, h⟩ | ⟨-, -, h⟩ | ⟨e, -, -, -, h⟩ | ⟨d, l, p, v, -, -, -, h⟩ <;> simp [h]

/-! ### The form at the cursor -/

theorem frameAt_zero (h : s.rem = 0) : s.frameAt = .eoo := by simp [State.frameAt, State.headBytes, h, decodeFrame]

theorem frameAt_nonzero (h : s.rem ≠ 0) : s.frameAt = decodeHeader s.cfg (s.byteAt s.cur) := by
  simp [State.frameAt, State.headBytes, h, decodeFrame]

/-- A frame form acts where it stands. -/
theorem runFrame_at {i : Instr} (hp : s.phase = .ready) (hi : s.frameAt = i) (t : State) : runFrame i s t = .next t := by
  simp [runFrame, hp, hi]

/-- A frame form acts nowhere else. -/
theorem runFrame_next {i : Instr} {t u : State} (h : runFrame i s t = .next u) :
    s.phase = .ready ∧ s.frameAt = i ∧ t = u := by
  unfold runFrame at h
  split at h
  · rename_i hc
    exact ⟨hc.1, hc.2, by cases h; rfl⟩
  · cases h

end Sys2Proof.Machine
end

