-- ==== Sys2Proof/Laws/Exec.lean ====
section
/-! SUPPORT. Everything an instruction can do, said once (`exec_cases`), and the two ways to a run of steps: a `STEP` and a
`SCAN`. -/

namespace Sys2Proof.Machine

open Sys2Proof.Config

variable (s : State)

/-! ### `STEP` -/

theorem exec_step (hp : s.phase = .ready) : exec .step s = .next (frameStep s) := by simp [exec, execStep, hp]

theorem exec_step_not (hp : s.phase ≠ .ready) : exec .step s = .next s := by simp [exec, execStep, hp]

/-- The meaning of the form that stands at the cursor is the step. -/
theorem exec_frameAt (hp : s.phase = .ready) : exec s.frameAt s = .next (frameStep s) := by
  by_cases hr : s.rem = 0
  · rw [frameAt_zero s hr, exec, execEoo, runFrame_at s hp (frameAt_zero s hr)]
    simp [frameStep, hr]
  · have hf := frameAt_nonzero s hr
    by_cases hm : s.byteAt s.cur = s.cfg.payloadMarker
    · have hi : s.frameAt = .pmark := by rw [hf, hm, decodeHeader_marker]
      rw [hi, exec, execPmark, runFrame_at s hp hi]
      simp [frameStep, hr, hm]
    · rw [decodeHeader, if_neg hm] at hf
      have hs : frameStep s =
          optionFrame (xdec s (deltaMarker (s.byteAt s.cur))) (xdec s (lengthMarker (s.byteAt s.cur))) s := by
        simp [frameStep, hr, hm]
      rw [hs, hf]
      generalize deltaMarker (s.byteAt s.cur) = dm at *
      generalize lengthMarker (s.byteAt s.cur) = lm at *
      have key : ∀ i t, headerForm dm lm = i → runFrame i s t = .next t := fun i t h => runFrame_at s hp (hf.trans h) t
      rcases markerClass_cases dm with h1 | rfl | rfl | rfl <;> rcases markerClass_cases lm with h2 | rfl | rfl | rfl
      all_goals
        simp only [headerForm, *, markerClass_13, markerClass_14, markerClass_15] at key ⊢
        simp only [exec, execOptNN, execOptN1, execOptN2, execOpt1N, execOpt11, execOpt12, execOpt2N, execOpt21, execOpt22,
          execBadD15, execBadL15]
        rw [key _ _ rfl]
        congr 1
      all_goals try (congr 1 <;> funext p <;> simp [xdec, *])

/-- A frame form that acts is the step. -/
theorem runFrame_step {i : Instr} {u t : State} (hu : exec i s = runFrame i s u) (h : exec i s = .next t) :
    s.phase = .ready ∧ s.frameAt = i ∧ t = frameStep s := by
  obtain ⟨hp, hi, -⟩ := runFrame_next s (hu ▸ h)
  have := exec_frameAt s hp
  rw [hi, h] at this
  exact ⟨hp, hi, by cases this; rfl⟩

/-! ### `SCAN` -/

theorem scanSteps_not (hp : s.phase ≠ .ready) (n : Nat) : scanSteps n s = s := by cases n <;> simp [scanSteps, hp]

theorem scanSteps_succ (hp : s.phase = .ready) (n : Nat) : scanSteps (n + 1) s = scanSteps n (frameStep s) := by
  simp [scanSteps, hp]

/-- What every step in `READY` keeps, a scan keeps. -/
theorem scanSteps_induct {p : State → Prop} (hstep : ∀ s, s.phase = .ready → p s → p (frameStep s)) (n : Nat) :
    ∀ s, p s → p (scanSteps n s) := by
  induction n with
  | zero => exact fun s h => h
  | succ n ih =>
    intro s h
    by_cases hp : s.phase = .ready
    · rw [scanSteps_succ s hp]
      exact ih _ (hstep s hp h)
    · rwa [scanSteps_not s hp]

/-- An option moves the cursor forward inside the window and stays in `READY`; everything else halts. -/
theorem frameStep_phase (hp : s.phase = .ready) :
    ((frameStep s).kind = .option ∧ (frameStep s).phase = .ready ∧ s.cur < (frameStep s).cur ∧
      (frameStep s).cur ≤ s.len) ∨
    (((frameStep s).kind = .endOfOptions ∨ (frameStep s).kind = .payloadMarker ∨ (frameStep s).kind = .fault) ∧
      (frameStep s).phase = .halt) := by
  rcases frameStep_cases s with ⟨-, h⟩ | ⟨-, -, h⟩ | ⟨e, -, -, -, h⟩ | ⟨d, l, p, v, -, -, ha, h⟩
  · simp [h]
  · simp [h]
  · simp [h]
  · have := ha.after_header
    have := ha.inside
    exact .inl (by simp [h, hp]; omega)

/-! ### What any instruction can do -/

/-- The sub-operations return a value or enter a fault. -/
theorem runExtended_next {i : Instr} {m : Nibble} {p : Nat} {r : Except Err (Ext × Nat)} {t : State}
    (hr : ∀ e, r = .error e → e.raised) (h : runExtended i m p r s = .next t) :
    (∃ a, t = s.give a) ∨ (∃ e, s.phase = .ready ∧ e.raised ∧ t = faultEntry e s) := by
  unfold runExtended at h
  split at h
  · rename_i hc
    split at h
    · cases h
      cases r with
      | ok v => exact .inl ⟨_, rfl⟩
      | error e => exact .inr ⟨e, hc.1, hr e rfl, rfl⟩
    · cases h
  · cases h

theorem runPayload_next {i : Instr} {numx : Sum} {p : Nat} {l : Ext} {r : Except Err Typed} {t : State}
    (hr : ∀ e, r = .error e → e.raised) (h : runPayload i numx p l r s = .next t) :
    (∃ a, t = s.give a) ∨ (∃ e, s.phase = .ready ∧ e.raised ∧ t = faultEntry e s) := by
  unfold runPayload at h
  split at h
  · rename_i hc
    split at h
    · cases h
      cases r with
      | ok v => exact .inl ⟨_, rfl⟩
      | error e => exact .inr ⟨e, hc.1, hr e rfl, rfl⟩
    · cases h
  · cases h

/-- Everything an instruction that answers a next state can do: nothing, one step, a scan, an accepted `START`, a reset, an
accepted write, the return of a value, or fault entry. -/
theorem exec_cases {i : Instr} {t : State} (h : exec i s = .next t) :
    t = s ∨ (s.phase = .ready ∧ (i = .step ∨ s.frameAt = i) ∧ t = frameStep s) ∨
    (i = .scan ∧ t = scanSteps (s.rem + 1) s) ∨
    (∃ n q, i = .start n q ∧ n ≤ s.cfg.bufCap ∧ t = startScan n q s) ∨ (i = .reset ∧ t = resetRegisters s) ∨
    (∃ a v, i = .bufwr a v ∧ s.phase ≠ .ready ∧ a < s.cfg.bufCap ∧ t = s.writeByte a v) ∨ (∃ a, t = s.give a) ∨
    (∃ e, s.phase = .ready ∧ e.raised ∧ t = faultEntry e s) := by
  have ofFrame {u : State} (hu : exec i s = runFrame i s u) :
      s.phase = .ready ∧ (i = .step ∨ s.frameAt = i) ∧ t = frameStep s := by
    obtain ⟨h1, h2, h3⟩ := runFrame_step s hu h
    exact ⟨h1, .inr h2, h3⟩
  have xr {m : Nibble} {p : Nat} : ∀ e, xdec s m p = .error e → e.raised := fun e => xdec_error_raised s
  have sub {q r : Prop} (hq : q ∨ r) : t = s ∨ (s.phase = .ready ∧ (i = .step ∨ s.frameAt = i) ∧ t = frameStep s) ∨
    (i = .scan ∧ t = scanSteps (s.rem + 1) s) ∨
    (∃ n q, i = .start n q ∧ n ≤ s.cfg.bufCap ∧ t = startScan n q s) ∨ (i = .reset ∧ t = resetRegisters s) ∨
    (∃ a v, i = .bufwr a v ∧ s.phase ≠ .ready ∧ a < s.cfg.bufCap ∧ t = s.writeByte a v) ∨ q ∨ r :=
    .inr (.inr (.inr (.inr (.inr (.inr hq)))))
  cases i with
  | optNN | optN1 | optN2 | opt1N | opt11 | opt12 | opt2N | opt21 | opt22 | badD15 | badL15 | pmark | eoo =>
    exact .inr (.inl (ofFrame rfl))
  | xdecN m p => exact sub (runExtended_next s (by simp [xdecN]) h)
  | xdec1 p => exact sub (runExtended_next s (by rw [← xdec_13]; exact xr) h)
  | xdec2 p => exact sub (runExtended_next s (by rw [← xdec_14]; exact xr) h)
  | xdecX p => exact sub (runExtended_next s (by simp [xdecX, Err.raised]) h)
  | uriPath p l => exact sub (runPayload_next s (by simp [vdecUriPath]) h)
  | contentFormat p l =>
    refine sub (runPayload_next s (fun e he => ?_) h)
    unfold vdecContentFormat at he
    split at he
    · cases he; simp [Err.raised]
    · split at he
      · cases he
      · cases he; simp [Err.raised]
  | block21 p => exact sub (runPayload_next s (by simp [vdecBlock21]) h)
  | block22 p => exact sub (runPayload_next s (by simp [vdecBlock22]) h)
  | block23 p => exact sub (runPayload_next s (by simp [vdecBlock23]) h)
  | block2BadLen p l => exact sub (runPayload_next s (by simp [vdecBlock2BadLen, Err.raised]) h)
  | opaqueOpt n p l => exact sub (runPayload_next s (by simp [vdecOpaque]) h)
  | untypedStrict n p l => exact sub (runPayload_next s (by simp [vdecUntypedStrict, Err.raised]) h)
  | unknown n => exact sub (runPayload_next s (by simp [vdecUnknown, Err.raised]) h)
  | nop => cases h; exact .inl rfl
  | start n q =>
    simp only [exec, execStart] at h
    split at h <;> cases h
    · exact .inr (.inr (.inr (.inl ⟨n, q, rfl, ‹_›, rfl⟩)))
    · exact .inl rfl
  | step =>
    simp only [exec, execStep] at h
    split at h <;> cases h
    · exact .inr (.inl ⟨‹_›, .inl rfl, rfl⟩)
    · exact .inl rfl
  | scan => cases h; exact .inr (.inr (.inl ⟨rfl, rfl⟩))
  | reset => cases h; exact .inr (.inr (.inr (.inr (.inl ⟨rfl, rfl⟩))))
  | bufwr a v =>
    simp only [exec, execBufwr] at h
    split at h <;> cases h
    · rename_i hc
      exact .inr (.inr (.inr (.inr (.inr (.inl ⟨a, v, rfl, hc.1, hc.2, rfl⟩)))))
    · exact .inl rfl
  | bufrd a => cases h; exact sub (.inl ⟨_, rfl⟩)
  | regrd r => cases h; exact sub (.inl ⟨_, rfl⟩)

end Sys2Proof.Machine
end

