-- ==== Sys2Proof/Laws/PerInstr.lean ====
section
/-! SUPPORT. Decoding what the encoder writes gives the instruction back, one lemma for each constructor of `Instr`. -/

namespace Sys2Proof.Laws.Codec

open Sys2Proof.Config

/-- Decode of encode is the instruction, under every parameters under which it is well formed. -/
def Statement (i : Instr) : Prop := ∀ P : Params, P.wf → i.wf P = true → decode P (encode P i) = .ok i

/-- A frame form is decoded from its header byte. -/
theorem of_header {P : Params} {i : Instr} {dm lm : Nibble} (he : encode P i = .frame [headerByte dm lm])
    (hm : optionHeader P dm lm = true) (hi : headerForm dm lm = i) : decode P (encode P i) = .ok i := by
  rw [he, decode, decodeFrame, decodeHeader_headerByte (optionHeader_ne hm), hi]

/-- A payload form is decoded from its number, place and length. -/
theorem of_payload {P : Params} {i : Instr} {numx : Sum} {voff : Nat} {l : Ext}
    (he : encode P i = .payload numx voff l) (hn : numx.toNat ≤ 131339) (hp : payloadPlace P voff l = true)
    (hi : decodePayload P numx voff l = i) : decode P (encode P i) = .ok i := by
  have hp : fits P voff = true ∧ l.toNat ≤ 65804 := by simpa [payloadPlace] using hp
  rw [he, decode, if_neg (by omega), if_neg (by omega), if_pos hp.1, hi]

theorem num_le (num : OptNum) : (num.setWidth 18).toNat ≤ 131339 := by
  have := num.isLt
  rw [BitVec.toNat_setWidth_of_le (by decide)]
  omega

theorem registered_num {P : Params} {num : OptNum} (h : num ∈ P.registry) : registered P (num.setWidth 18) = true :=
  registered_setWidth.2 h

@[simp] theorem setWidth_num (num : OptNum) : (num.setWidth 18).setWidth 16 = num := by
  apply BitVec.eq_of_toNat_eq
  have := num.isLt
  simp only [BitVec.toNat_setWidth]
  omega

theorem fits_zero (P : Params) : fits P 0 = true := by simp [fits]

theorem optNN (dm : Nibble) (lm : Nibble) : Statement (.optNN dm lm) := by
  intro P _ h
  simp only [Instr.wf, Bool.and_eq_true, literalMarker_iff] at h
  exact of_header rfl h.2 (by simp [headerForm, h.1])

theorem optN1 (dm : Nibble) : Statement (.optN1 dm) := by
  intro P _ h
  simp only [Instr.wf, Bool.and_eq_true, literalMarker_iff] at h
  exact of_header rfl h.2 (by simp [headerForm, h.1])

theorem optN2 (dm : Nibble) : Statement (.optN2 dm) := by
  intro P _ h
  simp only [Instr.wf, Bool.and_eq_true, literalMarker_iff] at h
  exact of_header rfl h.2 (by simp [headerForm, h.1])

theorem opt1N (lm : Nibble) : Statement (.opt1N lm) := by
  intro P _ h
  simp only [Instr.wf, Bool.and_eq_true, literalMarker_iff] at h
  exact of_header rfl h.2 (by simp [headerForm, h.1])

theorem opt2N (lm : Nibble) : Statement (.opt2N lm) := by
  intro P _ h
  simp only [Instr.wf, Bool.and_eq_true, literalMarker_iff] at h
  exact of_header rfl h.2 (by simp [headerForm, h.1])

theorem opt11 : Statement .opt11 := by
  intro P _ h
  exact of_header (by rw [encode]; rfl) h (by simp [headerForm])

theorem opt12 : Statement .opt12 := by
  intro P _ h
  exact of_header (by rw [encode]; rfl) h (by simp [headerForm])

theorem opt21 : Statement .opt21 := by
  intro P _ h
  exact of_header (by rw [encode]; rfl) h (by simp [headerForm])

theorem opt22 : Statement .opt22 := by
  intro P _ h
  exact of_header (by rw [encode]; rfl) h (by simp [headerForm])

theorem badD15 (lm : Nibble) : Statement (.badD15 lm) := by
  intro P _ h
  exact of_header rfl h (by simp [headerForm])

theorem badL15 (dm : Nibble) : Statement (.badL15 dm) := by
  intro P _ h
  simp only [Instr.wf, Bool.and_eq_true, bne_iff_ne] at h
  refine of_header rfl h.2 ?_
  have h15 : markerClass dm ≠ .reserved := fun hc => h.1 (markerClass_reserved.1 hc)
  rw [headerForm, markerClass_15]
  split <;> simp_all

theorem pmark : Statement .pmark := by
  intro P _ _
  rw [encode, decode, decodeFrame, decodeHeader_marker]

theorem eoo : Statement .eoo := by
  intro P _ _
  rfl

theorem xdecN (m : Nibble) (p : Nat) : Statement (.xdecN m p) := by
  intro P _ h
  simp only [Instr.wf, Bool.and_eq_true, literalMarker_iff] at h
  simp [encode, decode, decodeMarker, h]

theorem xdec1 (p : Nat) : Statement (.xdec1 p) := by
  intro P _ h
  simp [encode, decode, decodeMarker, show fits P p = true from h]

theorem xdec2 (p : Nat) : Statement (.xdec2 p) := by
  intro P _ h
  simp [encode, decode, decodeMarker, show fits P p = true from h]

theorem xdecX (p : Nat) : Statement (.xdecX p) := by
  intro P _ h
  simp [encode, decode, decodeMarker, show fits P p = true from h]

theorem uriPath (voff : Nat) (l : Ext) : Statement (.uriPath voff l) := by
  intro P hP h
  exact of_payload rfl (num_le _) h (by simp [decodePayload, registered_num hP.1])

theorem contentFormat (voff : Nat) (l : Ext) : Statement (.contentFormat voff l) := by
  intro P hP h
  refine of_payload rfl (num_le _) h ?_
  simp [decodePayload, registered_num hP.2.1, Ne.symm hP.2.2.2.1]

theorem block21 (voff : Nat) : Statement (.block21 voff) := by
  intro P hP h
  refine of_payload rfl (num_le _) (by simp [payloadPlace, show fits P voff = true from h]) ?_
  simp [decodePayload, decodeBlock2, registered_num hP.2.2.1, Ne.symm hP.2.2.2.2.1, Ne.symm hP.2.2.2.2.2.1]

theorem block22 (voff : Nat) : Statement (.block22 voff) := by
  intro P hP h
  refine of_payload rfl (num_le _) (by simp [payloadPlace, show fits P voff = true from h]) ?_
  simp [decodePayload, decodeBlock2, registered_num hP.2.2.1, Ne.symm hP.2.2.2.2.1, Ne.symm hP.2.2.2.2.2.1]

theorem block23 (voff : Nat) : Statement (.block23 voff) := by
  intro P hP h
  refine of_payload rfl (num_le _) (by simp [payloadPlace, show fits P voff = true from h]) ?_
  simp [decodePayload, decodeBlock2, registered_num hP.2.2.1, Ne.symm hP.2.2.2.2.1, Ne.symm hP.2.2.2.2.2.1]

theorem block2BadLen (voff : Nat) (l : Ext) : Statement (.block2BadLen voff l) := by
  intro P hP h
  simp only [Instr.wf, Bool.and_eq_true, bne_iff_ne] at h
  refine of_payload rfl (num_le _) h.1.1.1 ?_
  simp [decodePayload, decodeBlock2, registered_num hP.2.2.1, Ne.symm hP.2.2.2.2.1, Ne.symm hP.2.2.2.2.2.1, h]

theorem opaqueOpt (num : OptNum) (voff : Nat) (l : Ext) : Statement (.opaqueOpt num voff l) := by
  intro P _ h
  simp only [Instr.wf, untypedNumber, typedNumber, Bool.and_eq_true, Bool.not_eq_true', Bool.or_eq_false_iff, beq_iff_eq,
    beq_eq_false_iff_ne] at h
  exact of_payload rfl (num_le _) h.1.1 (by simp [decodePayload, h])

theorem untypedStrict (num : OptNum) (voff : Nat) (l : Ext) : Statement (.untypedStrict num voff l) := by
  intro P _ h
  simp only [Instr.wf, untypedNumber, typedNumber, Bool.and_eq_true, Bool.not_eq_true', Bool.or_eq_false_iff, beq_iff_eq,
    beq_eq_false_iff_ne] at h
  exact of_payload rfl (num_le _) h.1.1 (by simp [decodePayload, h])

theorem unknown (numx : Sum) : Statement (.unknown numx) := by
  intro P _ h
  simp only [Instr.wf, Bool.and_eq_true, decide_eq_true_eq, Bool.not_eq_true'] at h
  exact of_payload rfl h.1 (by simp [payloadPlace, fits_zero]) (by simp [decodePayload, h.2])

theorem nop : Statement .nop := by
  intro P _ _
  simp [encode, decode, decodeHost, fits_zero]

theorem step : Statement .step := by
  intro P _ _
  simp [encode, decode, decodeHost, fits_zero]

theorem scan : Statement .scan := by
  intro P _ _
  simp [encode, decode, decodeHost, fits_zero]

theorem start (lenIn : Nat) (prevIn : OptNum) : Statement (.start lenIn prevIn) := by
  intro P _ h
  simp [encode, decode, decodeHost, show fits P lenIn = true from h]

theorem reset : Statement .reset := by
  intro P _ _
  rfl

theorem bufwr (a : Nat) (v : Byte) : Statement (.bufwr a v) := by
  intro P _ h
  simp [encode, decode, decodeHost, show fits P a = true from h]

theorem bufrd (a : Nat) : Statement (.bufrd a) := by
  intro P _ h
  simp [encode, decode, decodeHost, show fits P a = true from h]

theorem regrd (r : Nibble) : Statement (.regrd r) := by
  intro P _ _
  rfl

end Sys2Proof.Laws.Codec
end

