-- ==== Sys2Proof/Laws/Reference.lean ====
section
/-! SUPPORT. The bridge between the machine's step over offsets and the reference functions over byte lists: slices of the
window, the extended field, the parts of a step with the positions of 30_encoding.md R76, and the serializer. -/

namespace Sys2Proof.Machine

open Sys2Proof.Config Sys2Proof.Reference

/-! ### Slices of the window -/

/-- The remainder begins with the byte at the cursor (10_state.md R23). -/
theorem State.remainder_cons (s : State) (h : s.rem ≠ 0) :
    s.remainder = s.byteAt s.cur :: s.slice (s.cur + 1) (s.rem - 1) := by
  rw [State.remainder]
  obtain ⟨n, hn⟩ := Nat.exists_eq_succ_of_ne_zero h
  rw [hn, State.slice_succ]; rfl

/-- The first bytes of a slice. -/
theorem State.take_slice (s : State) (p n k : Nat) (h : k ≤ n) : (s.slice p n).take k = s.slice p k := by
  obtain ⟨j, rfl⟩ := Nat.exists_eq_add_of_le h
  rw [State.slice_add, List.take_left' (by simp)]

/-- The rest of a slice. -/
theorem State.drop_slice (s : State) (p n k : Nat) (h : k ≤ n) : (s.slice p n).drop k = s.slice (p + k) (n - k) := by
  obtain ⟨j, rfl⟩ := Nat.exists_eq_add_of_le h
  rw [State.slice_add, List.drop_left' (by simp), Nat.add_sub_cancel_left]

/-! ### The parts of a step -/

/-- The source's `decodeExtended` on the bytes of the window is `XDEC` (40_extended_field.md R100). -/
theorem decodeExtended_slice (s : State) (m : Nibble) (p : Nat) (hp : p ≤ s.len) :
    decodeExtended m.toNat (s.slice p (s.len - p)) =
      match xdec s m p with
      | .error e => .error e
      | .ok (v, q) => .ok (v.toNat, s.slice q (s.len - q)) := by
  have b0 := (s.byteAt p).isLt
  have b1 := (s.byteAt (p + 1)).isLt
  unfold decodeExtended
  rcases markerClass_cases m with h | rfl | rfl | rfl
  · have := markerClass_literal.1 h
    rw [if_pos this, xdec_literal s h, xdecN_eq]
    simp only [BitVec.toNat_ofNat]
    rw [Nat.mod_eq_of_lt (by omega)]
  · simp only [xdec_13, xdec1_eq]
    by_cases c : s.len - p < 1
    · have : s.len - p = 0 := by omega
      simp [this, State.slice_zero]
    · obtain ⟨n, hn⟩ : ∃ n, s.len - p = n + 1 := ⟨s.len - p - 1, by omega⟩
      have h1 : s.len - (p + 1) = n := by omega
      simp [hn, State.slice_succ, h1]
      omega
  · simp only [xdec_14, xdec2_eq]
    by_cases c : s.len - p < 2
    · have : s.len - p = 0 ∨ s.len - p = 1 := by omega
      rcases this with h | h <;> simp [h, State.slice_zero, State.slice_one]
    · obtain ⟨n, hn⟩ : ∃ n, s.len - p = n + 1 + 1 := ⟨s.len - p - 2, by omega⟩
      have h1 : s.len - (p + 2) = n := by omega
      simp [hn, State.slice_succ, h1]
      omega
  · simp [xdecX]

/-- The sum for a delta given as a number. -/
theorem numx_ofNat (s : State) (d : Nat) (h : d ≤ 65804) : (s.numx (BitVec.ofNat 17 d)).toNat = s.prev.toNat + d := by
  have : (BitVec.ofNat 17 d).toNat = d := by rw [BitVec.toNat_ofNat]; omega
  rw [numx_toNat s (by omega), this]

/-- An option header whose markers are not reserved, with R76's positions: both extended fields, then
the rest of the step. -/
theorem optionFrame_eq (s : State) (dm lm : Nibble) (h1 : dm ≠ 15#4) (h2 : lm ≠ 15#4) (hr : s.rem ≠ 0) :
    let dx := (markerClass dm).extBytes
    let lx := (markerClass lm).extBytes
    optionFrame (xdec s dm) (xdec s lm) s =
      if s.rem < 1 + dx + lx then faultEntry .truncatedInput s
      else finishOption (BitVec.ofNat 17 (s.fieldValue dm (s.cur + 1))) (BitVec.ofNat 17 (s.fieldValue lm (s.cur + 1 + dx)))
        (s.cur + 1 + dx + lx) s := by
  intro dx lx
  unfold optionFrame
  rw [xdec_eq s h1]
  unfold State.rem at *
  by_cases a : s.len - (s.cur + 1) < (markerClass dm).extBytes
  · rw [if_pos a, if_pos (by omega)]
  · rw [if_neg a]
    simp only
    rw [xdec_eq s h2]
    by_cases b : s.len - (s.cur + 1 + (markerClass dm).extBytes) < (markerClass lm).extBytes
    · rw [if_pos b, if_pos (by omega)]
    · rw [if_neg b, if_neg (by omega)]

/-- The rest of a step as a construction on the payload's bytes. -/
theorem finishOption_eq (s : State) (d l p : Nat) (hd : d ≤ 65804) (hl : l ≤ 65804) :
    finishOption (BitVec.ofNat 17 d) (BitVec.ofNat 17 l) p s =
      if s.len - p < l then faultEntry .truncatedInput s
      else match construct s.cfg (s.prev.toNat + d) (s.slice p l) with
        | .error e => faultEntry e s
        | .ok v => commit (BitVec.ofNat 17 d) (BitVec.ofNat 17 l) p v s := by
  have hl' : (BitVec.ofNat 17 l).toNat = l := by rw [BitVec.toNat_ofNat]; omega
  rw [finishOption, hl', vdec_eq_construct, numx_ofNat s d hd, hl'] <;> rfl

/-- The table of 30_encoding.md R76 against the classes of the two markers. -/
theorem layoutAt_headerForm (s : State) (dm lm : Nibble) (f : Layout) (hl : s.layoutAt (headerForm dm lm) = some f) :
    dm ≠ 15#4 ∧ lm ≠ 15#4 ∧ f = ⟨1 + (markerClass dm).extBytes + (markerClass lm).extBytes,
      s.fieldValue dm (s.cur + 1), s.fieldValue lm (s.cur + 1 + (markerClass dm).extBytes)⟩ := by
  rcases markerClass_cases dm with h1 | rfl | rfl | rfl <;> rcases markerClass_cases lm with h2 | rfl | rfl | rfl
  all_goals
    simp only [headerForm, *, markerClass_13, markerClass_14, markerClass_15, State.layoutAt, layout,
      Option.some.injEq, reduceCtorEq] at hl
  all_goals subst hl
  all_goals refine ⟨?_, ?_, ?_⟩
  all_goals try decide
  all_goals try (rintro rfl; simp at h1)
  all_goals try (rintro rfl; simp at h2)
  all_goals simp_all [State.fieldValue, MarkerClass.extBytes, Nat.add_assoc]

/-- Where an extended-field form runs. -/
theorem runExtended_ok {s : State} {i : Instr} {m : Nibble} {p : Nat} {r : Except Err (Ext × Nat)} (hp : s.phase = .ready)
    (hi : decodeMarker m p = i) (hl : p ≤ s.len) :
    runExtended i m p r s = .next (subResult (fun x => .extended x.1 x.2) r s) := by
  rw [runExtended, if_pos ⟨hp, hi⟩, if_pos hl]

/-- Where a payload form runs. -/
theorem runPayload_ok {s : State} {i : Instr} {numx : Sum} {p : Nat} {l : Ext} {r : Except Err Typed}
    (hp : s.phase = .ready) (hi : decodePayload s.cfg numx p l = i) (hl : p + l.toNat ≤ s.len) :
    runPayload i numx p l r s = .next (subResult .typed r s) := by
  rw [runPayload, if_pos ⟨hp, hi⟩, if_pos hl]

/-! ### The reference encoder -/

/-- The bit fields of a `Block2` word are what it was built from (44_reference_encoder.md R219). -/
theorem block2Fields_ofFields (n : BitVec 20) (m : BitVec 1) (z : BitVec 3) :
    block2Fields (n.toNat * 16 + m.toNat * 8 + z.toNat) = ⟨.block2, 0#8, n, m, z⟩ := by
  have := n.isLt; have := m.isLt; have := z.isLt
  simp only [block2Fields, Typed.mk.injEq, true_and]
  refine ⟨?_, ?_, ?_⟩ <;> apply BitVec.eq_of_toNat_eq <;> rw [BitVec.toNat_ofNat] <;> omega

/-- An encoded extended field decodes back, whatever follows (44_reference_encoder.md R216). -/
theorem decodeExtended_encodeExtended {v m : Nat} {ext : List Byte} (h : encodeExtended v = .ok (m, ext)) :
    v ≤ 65804 ∧ m ≤ 14 ∧ ∀ rest, decodeExtended m (ext ++ rest) = .ok (v, rest) := by
  unfold encodeExtended at h
  split at h
  · cases h; refine ⟨by omega, by omega, fun rest => by simp [decodeExtended, *]⟩
  split at h
  · cases h; refine ⟨by omega, by omega, fun rest => ?_⟩
    simp [decodeExtended]; omega
  split at h
  · cases h; refine ⟨by omega, by omega, fun rest => ?_⟩
    simp [decodeExtended]; omega
  · cases h

/-- Everything a serialized option is (44_reference_encoder.md R212). -/
theorem serialize_ok {number prev : Nat} {payload frame : List Byte} (h : serialize number prev payload = .ok frame) :
    prev ≤ number ∧ ∃ dm dext lm lext, encodeExtended (number - prev) = .ok (dm, dext) ∧
      encodeExtended payload.length = .ok (lm, lext) ∧
      frame = BitVec.ofNat 8 (dm * 16 + lm) :: (dext ++ lext ++ payload) := by
  unfold serialize at h
  split at h
  · cases h
  · refine ⟨by omega, ?_⟩
    split at h
    · cases h
    · split at h
      · cases h
      · cases h; exact ⟨_, _, _, _, ‹_›, ‹_›, rfl⟩

end Sys2Proof.Machine
end

