-- ==== Sys2Proof/Tests/Slice0.lean ====
section
/-! SUPPORT. The model's own tests. Every expected result is a vector of spec/95_test_vectors.md (its name stands in the
comment) or read off the rule cited; and one witness for the hypotheses of every statement that has some. -/

namespace Sys2Proof.Tests

open Sys2Proof.Machine Sys2Proof.Config Sys2Proof.Reference

/-! ### Helpers -/

/-- The state after `RESET`, the bytes loaded at offset 0, then `START(len, prev)`. -/
def scanOf (P : Params) (bytes : List Byte) (len : Nat) (prev : OptNum) : State :=
  { State.reset with
    cfg := P, buf := (List.range bytes.length).zip bytes, phase := .ready, len := len, prev := prev }

/-- The same with the default parameters and `LEN` the number of bytes. -/
def ready (bytes : List Byte) (prev : OptNum) : State := scanOf Params.default bytes bytes.length prev

/-- `UNTYPED_POLICY = STRICT`. -/
def strict : Params := { Params.default with untypedPolicy := .strict }

/-- `REGISTRY` with 300 added. -/
def plus300 : Params := { Params.default with registry := 300#16 :: Params.default.registry }

/-- `BUF_CAP = 100`. -/
def cap100 : Params := { Params.default with bufCap := 100 }

/-- `PAYLOAD_MARKER = 0xB4`. -/
def markerB4 : Params := { Params.default with payloadMarker := 0xB4#8 }

/-- One field of a next state. -/
def view {α : Type} (f : State → α) : Host.Outcome State Fault Refusal → Option α
  | .next t => some (f t)
  | .fault _ => none
  | .refused _ => none

/-- The record of an option without typed fields. -/
def plain (num : OptNum) (d l : Ext) (voff : Nat) (v : Variant) (cur : Nat) : Record :=
  .option num d l voff v 0#8 0#20 0#1 0#3 cur

/-! ### Well-formedness refuses what no code stands for -/

theorem test_wf_literal_delta : (Instr.optNN 13#4 0#4).wf Params.default = false := by decide
theorem test_wf_literal_length : (Instr.optNN 0#4 13#4).wf Params.default = false := by decide
theorem test_wf_optN1_delta : (Instr.optN1 14#4).wf Params.default = false := by decide
theorem test_wf_optN2_delta : (Instr.optN2 15#4).wf Params.default = false := by decide
theorem test_wf_opt1N_length : (Instr.opt1N 15#4).wf Params.default = false := by decide
theorem test_wf_opt2N_length : (Instr.opt2N 13#4).wf Params.default = false := by decide
theorem test_wf_header_is_marker : (Instr.optNN 11#4 4#4).wf markerB4 = false := by decide
theorem test_wf_badD15_is_marker : (Instr.badD15 15#4).wf Params.default = false := by decide
theorem test_wf_badL15_delta : (Instr.badL15 15#4).wf markerB4 = false := by decide
theorem test_wf_xdecN_marker : (Instr.xdecN 13#4 0).wf Params.default = false := by decide
theorem test_wf_xdec1_position : (Instr.xdec1 131072).wf Params.default = false := by decide
theorem test_wf_uriPath_length : (Instr.uriPath 0 65805#17).wf Params.default = false := by decide
theorem test_wf_uriPath_offset : (Instr.uriPath 131072 0#17).wf Params.default = false := by decide
theorem test_wf_badLen_is_good : (Instr.block2BadLen 0 3#17).wf Params.default = false := by decide
theorem test_wf_opaque_unregistered : (Instr.opaqueOpt 2#16 0 0#17).wf Params.default = false := by decide
theorem test_wf_opaque_typed : (Instr.opaqueOpt 11#16 0 0#17).wf Params.default = false := by decide
theorem test_wf_opaque_policy : (Instr.opaqueOpt 1#16 0 0#17).wf strict = false := by decide
theorem test_wf_strict_policy : (Instr.untypedStrict 1#16 0 0#17).wf Params.default = false := by decide
theorem test_wf_unknown_registered : (Instr.unknown 1#18).wf Params.default = false := by decide
theorem test_wf_unknown_sum : (Instr.unknown 131340#18).wf Params.default = false := by decide
theorem test_wf_start_len : (Instr.start 131072 0#16).wf Params.default = false := by decide
theorem test_wf_bufwr_offset : (Instr.bufwr 131072 0#8).wf Params.default = false := by decide
theorem test_wf_bufrd_offset : (Instr.bufrd 131072).wf Params.default = false := by decide
theorem test_wf_accepts : (Instr.start 131071 65535#16).wf Params.default = true := by decide

/-! ### Decoding, bit by bit (30_encoding.md R71, R72, R76, R79, R83) -/

/-- `dddd = 1011`, `llll = 0100`: S7. -/
theorem test_decode_optNN : decodeTableWord 8 0b10110100 = some (.optNN 11#4 4#4) := by decide
theorem test_decode_optN1 : decodeTableWord 8 0b10111101 = some (.optN1 11#4) := by decide
theorem test_decode_optN2 : decodeTableWord 8 0b10111110 = some (.optN2 11#4) := by decide
theorem test_decode_opt1N : decodeTableWord 8 0b11010001 = some (.opt1N 1#4) := by decide
theorem test_decode_opt11 : decodeTableWord 8 0b11011101 = some .opt11 := by decide
theorem test_decode_opt12 : decodeTableWord 8 0b11011110 = some .opt12 := by decide
theorem test_decode_opt2N : decodeTableWord 8 0b11101100 = some (.opt2N 12#4) := by decide
theorem test_decode_opt21 : decodeTableWord 8 0b11101101 = some .opt21 := by decide
theorem test_decode_opt22 : decodeTableWord 8 0b11101110 = some .opt22 := by decide
theorem test_decode_badD15 : decodeTableWord 8 0b11111110 = some (.badD15 14#4) := by decide
theorem test_decode_badL15 : decodeTableWord 8 0b11101111 = some (.badL15 14#4) := by decide
theorem test_decode_pmark : decodeTableWord 8 0b11111111 = some .pmark := by decide
theorem test_decode_eoo : decodeTableWord 0 0 = some .eoo := by decide
theorem test_decode_xdecN : decode Params.default (.marker 0b1100#4 3) = .ok (.xdecN 12#4 3) := by decide
theorem test_decode_xdec1 : decode Params.default (.marker 0b1101#4 3) = .ok (.xdec1 3) := by decide
theorem test_decode_xdec2 : decode Params.default (.marker 0b1110#4 3) = .ok (.xdec2 3) := by decide
theorem test_decode_xdecX : decode Params.default (.marker 0b1111#4 3) = .ok (.xdecX 3) := by decide
/-- The forms of a number and a length (30_encoding.md R82). -/
theorem test_decode_uriPath : decode Params.default (.payload 11#18 1 4#17) = .ok (.uriPath 1 4#17) := by decide
theorem test_decode_contentFormat :
    decode Params.default (.payload 12#18 1 1#17) = .ok (.contentFormat 1 1#17) := by decide
theorem test_decode_block21 : decode Params.default (.payload 23#18 2 1#17) = .ok (.block21 2) := by decide
theorem test_decode_block22 : decode Params.default (.payload 23#18 2 2#17) = .ok (.block22 2) := by decide
theorem test_decode_block23 : decode Params.default (.payload 23#18 2 3#17) = .ok (.block23 2) := by decide
theorem test_decode_block2BadLen :
    decode Params.default (.payload 23#18 2 0#17) = .ok (.block2BadLen 2 0#17) := by decide
theorem test_decode_opaque : decode Params.default (.payload 3#18 1 3#17) = .ok (.opaqueOpt 3#16 1 3#17) := by decide
theorem test_decode_untypedStrict :
    decode strict (.payload 3#18 1 3#17) = .ok (.untypedStrict 3#16 1 3#17) := by decide
/-- V23: the sum 65543 is not the registered number 7. -/
theorem test_decode_unknown : decode Params.default (.payload 65543#18 2 0#17) = .ok (.unknown 65543#18) := by decide
theorem test_decode_nop : decodeTableWord 2 0b00 = some .nop := by decide
theorem test_decode_start : decode Params.default (.host (.cmd 0b01#2 2 5#16)) = .ok (.start 2 5#16) := by decide
theorem test_decode_step : decodeTableWord 2 0b10 = some .step := by decide
theorem test_decode_scan : decodeTableWord 2 0b11 = some .scan := by decide
theorem test_decode_reset : decode Params.default (.host .rst) = .ok .reset := by decide
theorem test_decode_bufwr : decode Params.default (.host (.bufWrite 9 0x41#8)) = .ok (.bufwr 9 0x41#8) := by decide
theorem test_decode_bufrd : decode Params.default (.host (.bufRead 9)) = .ok (.bufrd 9) := by decide
theorem test_decode_regrd : decode Params.default (.host (.regRead 0b1111#4)) = .ok (.regrd 15#4) := by decide
/-- A value a 17-bit port cannot carry. -/
theorem test_decode_too_wide : decode Params.default (.host (.bufRead 131072)) = .error .offsetTooWide := by decide
theorem test_decode_too_long : decode Params.default (.payload 11#18 0 65805#17) = .error .lengthOutOfRange := by decide
theorem test_decode_too_large :
    decode Params.default (.payload 131340#18 0 0#17) = .error .numberOutOfRange := by decide

/-! ### Frame forms -/

/-- F1. -/
theorem test_optNN : view State.out (exec (.optNN 11#4 4#4) (ready [0xB4, 0x74, 0x65, 0x6D, 0x70] 0)) =
    some [plain 11 11 4 1 .uriPath 5] := by decide
/-- F5: `dm = lm = 12`. -/
theorem test_optNN_fault : view State.out (exec (.optNN 12#4 12#4) (ready (0xCC#8 :: List.replicate 12 0#8) 0)) =
    some [.fault .malformedHeader 0] := by decide
/-- F6. -/
theorem test_optN1 : view State.out (exec (.optN1 11#4) (ready (0xBD#8 :: 0#8 :: List.replicate 13 0x61#8) 0)) =
    some [plain 11 11 13 2 .uriPath 15] := by decide
/-- F8. -/
theorem test_optN1_short : view State.out (exec (.optN1 11#4) (ready [0xBD] 0)) =
    some [.fault .truncatedInput 0] := by decide
/-- F12: the longest payload; its bytes are not read. -/
theorem test_optN2 : view State.out (exec (.optN2 11#4) (scanOf Params.default [0xBE, 0xFF, 0xFF] 65807 0)) =
    some [plain 11 11 65804 3 .uriPath 65807] := by decide
/-- F13. -/
theorem test_optN2_short : view State.out (exec (.optN2 11#4) (ready [0xBE, 0x00] 0)) =
    some [.fault .truncatedInput 0] := by decide
/-- F15, S9. -/
theorem test_opt1N : view State.out (exec (.opt1N 1#4) (ready [0xD1, 0x0A, 0x5C] 0)) =
    some [.option 23 23 1 2 .block2 0 5 1 4 3] := by decide
/-- V23: the sum is not reduced modulo 65536. -/
theorem test_opt1N_sum : view State.out (exec (.opt1N 0#4) (ready [0xD0, 0x00] 65530)) =
    some [.fault .unknownOption 0] := by decide
/-- F19. -/
theorem test_opt11 : view State.out (exec .opt11 (ready (0xDD#8 :: 0x16#8 :: 1#8 :: List.replicate 14 0xAA#8) 0)) =
    some [plain 35 35 14 3 .opaque_ 17] := by decide
/-- F20. -/
theorem test_opt11_short : view State.out (exec .opt11 (ready [0xDD, 0x16] 0)) =
    some [.fault .truncatedInput 0] := by decide
/-- F22: the payload's bytes are not read. -/
theorem test_opt12 : view State.out (exec .opt12 (scanOf Params.default [0xDE, 0x16, 0, 0] 273 0)) =
    some [plain 35 35 269 4 .opaque_ 273] := by decide
/-- F23. -/
theorem test_opt12_short : view State.out (exec .opt12 (ready [0xDE, 0x16, 0x00] 0)) =
    some [.fault .truncatedInput 0] := by decide
/-- F27. -/
theorem test_opt2N : view State.out (exec (.opt2N 3#4) (scanOf plus300 [0xE3, 0x00, 0x1F, 1, 2, 3] 6 0)) =
    some [plain 300 300 3 3 .opaque_ 6] := by decide
/-- V22: the largest sum. -/
theorem test_opt2N_sum : view State.out (exec (.opt2N 0#4) (ready [0xE0, 0xFF, 0xFF] 65535)) =
    some [.fault .unknownOption 0] := by decide
/-- F29. -/
theorem test_opt21 : view State.out (exec .opt21 (scanOf plus300 [0xED, 0x00, 0x1F, 0x00] 17 0)) =
    some [plain 300 300 13 4 .opaque_ 17] := by decide
/-- F30. -/
theorem test_opt21_short : view State.out (exec .opt21 (ready [0xED, 0x00, 0x1F] 0)) =
    some [.fault .truncatedInput 0] := by decide
/-- F31. -/
theorem test_opt22 : view State.out (exec .opt22 (scanOf plus300 [0xEE, 0x00, 0x1F, 0, 0] 274 0)) =
    some [plain 300 300 269 5 .opaque_ 274] := by decide
/-- F32. -/
theorem test_opt22_short : view State.out (exec .opt22 (scanOf plus300 [0xEE, 0x00, 0x1F, 0, 0] 273 0)) =
    some [.fault .truncatedInput 0] := by decide
/-- B1. -/
theorem test_badD15 : view State.out (exec (.badD15 1#4) (ready [0xF1, 0x00] 0)) =
    some [.fault .malformedHeader 0] := by decide
/-- T9: `FF` where the marker is another byte. -/
theorem test_badD15_FF : view State.out (exec (.badD15 15#4) (scanOf markerB4 [0xFF, 0x01] 2 0)) =
    some [.fault .malformedHeader 0] := by decide
/-- B7: the missing delta extension is found first. -/
theorem test_badL15_short : view State.out (exec (.badL15 13#4) (ready [0xDF] 0)) =
    some [.fault .truncatedInput 0] := by decide
/-- B9. -/
theorem test_badL15 : view State.out (exec (.badL15 14#4) (ready [0xEF, 0x00, 0x00] 0)) =
    some [.fault .malformedHeader 0] := by decide
/-- T4, S6. -/
theorem test_pmark : view (fun t => (t.out, t.remainder, t.prev)) (exec .pmark (ready [0xFF, 0x01, 0x02] 40)) =
    some ([.payloadMarker 1], [0x01, 0x02], 40) := by decide
/-- T8: the marker test comes first for every parameter value. -/
theorem test_pmark_B4 : view State.out (exec .pmark (scanOf markerB4 [0xB4, 0x74, 0x65, 0x6D, 0x70] 5 0)) =
    some [.payloadMarker 1] := by decide
/-- T2. -/
theorem test_eoo : view (fun t => (t.out, t.prev, t.phase)) (exec .eoo (ready [] 40000)) =
    some ([.endOfOptions 0], 40000, .halt) := by decide

/-! ### Extended-field forms -/

/-- X3. -/
theorem test_xdecN : view State.answer (exec (.xdecN 12#4 0) (ready [0xFF, 0xFF] 0)) = some (.extended 12 0) := by decide
/-- X6. -/
theorem test_xdec1 : view State.answer (exec (.xdec1 0) (ready [0xFF] 0)) = some (.extended 268 1) := by decide
/-- X7. -/
theorem test_xdec1_short : view State.err (exec (.xdec1 0) (ready [] 0)) = some .truncatedInput := by decide
/-- X10: big-endian. -/
theorem test_xdec2 : view State.answer (exec (.xdec2 0) (ready [0x01, 0x00] 0)) = some (.extended 525 2) := by decide
/-- X12. -/
theorem test_xdec2_max : view State.answer (exec (.xdec2 0) (ready [0xFF, 0xFF] 0)) = some (.extended 65804 2) := by
  decide
/-- X15. -/
theorem test_xdecX : view State.err (exec (.xdecX 0) (ready [0x00] 0)) = some .malformedHeader := by decide

/-! ### Payload forms -/

/-- V2: no UTF-8 check. -/
theorem test_uriPath : view State.answer (exec (.uriPath 1 2#17) (ready [0xB2, 0xC3, 0x28] 0)) =
    some (.typed ⟨.uriPath, 0, 0, 0, 0⟩) := by decide
/-- V4. -/
theorem test_contentFormat : view State.answer (exec (.contentFormat 1 1#17) (ready [0xC1, 0x32] 0)) =
    some (.typed ⟨.contentFormat, 50, 0, 0, 0⟩) := by decide
/-- Q9: the length test comes before the value test. -/
theorem test_contentFormat_length : view State.err (exec (.contentFormat 1 2#17) (ready [0xC2, 0x01, 0x01] 0)) =
    some .malformedHeader := by decide
/-- V11. -/
theorem test_block21 : view State.answer (exec (.block21 2) (ready [0xD1, 0x0A, 0xFF] 0)) =
    some (.typed ⟨.block2, 0, 15, 1, 7⟩) := by decide
/-- V12: big-endian. -/
theorem test_block22 : view State.answer (exec (.block22 2) (ready [0xD2, 0x0A, 0x12, 0x3E] 0)) =
    some (.typed ⟨.block2, 0, 291, 1, 6⟩) := by decide
/-- V15: big-endian. -/
theorem test_block23 : view State.answer (exec (.block23 2) (ready [0xD3, 0x0A, 0x01, 0x00, 0x08] 0)) =
    some (.typed ⟨.block2, 0, 4096, 1, 0⟩) := by decide
/-- V16. -/
theorem test_block2BadLen : view State.err (exec (.block2BadLen 2 0#17) (ready [0xD0, 0x0A] 0)) =
    some .malformedHeader := by decide
/-- V18. -/
theorem test_opaque : view State.answer (exec (.opaqueOpt 3#16 1 3#17) (ready [0x33, 0x61, 0x2E, 0x62] 0)) =
    some (.typed ⟨.opaque_, 0, 0, 0, 0⟩) := by decide
/-- V19. -/
theorem test_untypedStrict :
    view State.err (exec (.untypedStrict 3#16 1 3#17) (scanOf strict [0x33, 0x61, 0x2E, 0x62] 4 0)) =
      some .unknownOption := by decide
/-- V23. -/
theorem test_unknown : view State.err (exec (.unknown 65543#18) (ready [0xD0, 0x00] 65530)) = some .unknownOption := by
  decide
/-- A form that the state does not select, and one whose payload is not there (log entry 7). -/
theorem test_not_selected : exec (.opaqueOpt 11#16 1 1#17) (ready [0xB1, 0x41] 0) = .refused .notSelected := by rfl
theorem test_outside_window : exec (.uriPath 1 5#17) (ready [0xB5, 0x41] 0) = .fault .outsideWindow := by rfl

/-! ### Host commands and port operations -/

/-- `NOP` from `READY` (43_commands_scanner.md R182). -/
theorem test_nop : view id (exec .nop (ready [0xB0] 7)) = some (ready [0xB0] 7) := by decide
/-- K12. -/
theorem test_start : view (fun t => (t.phase, t.len, t.prev, t.cur)) (exec (.start 100 5) { State.reset with cfg := cap100 }) =
    some (.ready, 100, 5, 0) := by decide
/-- K11. -/
theorem test_start_refused :
    view (fun t => (t.phase, t.len, t.prev)) (exec (.start 101 5) { State.reset with cfg := cap100 }) =
      some (.idle, 0, 0) := by decide
/-- K5. -/
theorem test_step :
    view (fun t => (t.phase, t.kind, t.cur, t.prev, t.num, t.variant)) (exec .step (ready [0xB1, 0x41] 0)) =
      some (.ready, .option, 2, 11, 11, .uriPath) := by decide
/-- K2, in phase `IDLE`. -/
theorem test_step_idle : view id (exec .step State.reset) = some State.reset := by decide
/-- P1: three records, the message payload is the remainder. -/
theorem test_scan :
    view (fun t => (t.out, t.remainder))
      (exec .scan (ready [0xB4, 0x74, 0x65, 0x6D, 0x70, 0x11, 0x28, 0xFF, 0x01, 0x02] 0)) =
      some ([plain 11 11 4 1 .uriPath 5, .option 12 1 1 6 .contentFormat 40 0 0 0 7, .payloadMarker 8], [0x01, 0x02]) := by
  decide
/-- K16: `00` is a legal header. -/
theorem test_scan_zero : view State.out (exec .scan (ready [0x10, 0x00] 0)) =
    some [plain 1 1 0 1 .opaque_ 1, plain 1 0 0 2 .opaque_ 2, .endOfOptions 2] := by decide
/-- K1. -/
theorem test_reset : view (fun t => (t.phase, t.kind, t.cur, t.len, t.prev)) (exec .reset (ready [0xB1, 0x41] 11)) =
    some (.idle, .none, 0, 0, 0) := by decide
/-- K4: a write during a scan is dropped. -/
theorem test_bufwr_ready : view (fun t => t.byteAt 0) (exec (.bufwr 0 0xFF) (ready [0xB1, 0x41] 0)) = some 0xB1 := by
  decide
/-- K3. -/
theorem test_bufwr : view (fun t => t.buf) (exec (.bufwr 0 0xB1) State.reset) = some [(0, 0xB1)] := by decide
/-- K4. -/
theorem test_bufrd : view State.answer (exec (.bufrd 0) (ready [0xB1, 0x41] 0)) = some (.byte 0xB1) := by decide
/-- R184: 0 outside the buffer. -/
theorem test_bufrd_outside : view State.answer (exec (.bufrd 100) { State.reset with cfg := cap100 }) =
    some (.byte 0) := by decide
/-- R38: register 5 is `PREV`. -/
theorem test_regrd : view State.answer (exec (.regrd 5) (ready [0xB1, 0x41] 11)) = some (.reg 11) := by decide
/-- K13. -/
theorem test_regrd_15 : view State.answer (exec (.regrd 15) (ready [0xB1, 0x41] 11)) = some (.reg 0) := by decide

/-! ### One step of the machine -/

/-- The host drives `STEP`. -/
theorem test_machine_step :
    view State.out (step { ready [0xB1, 0x41] 0 with inputs := [.cmd 0b10 0 0] }) = some [plain 11 11 1 1 .uriPath 2] := by
  decide
/-- A word of the opcode table placed from reset runs: `D0 00 …` is number 13, which is not registered (F16). -/
theorem test_withFetchWord :
    view State.out (step (State.reset.withFetchWord 8 0b11010000)) = some [.fault .unknownOption 0] := by decide
theorem test_withFetchWord_eoo : view State.out (step (State.reset.withFetchWord 0 0)) = some [.endOfOptions 0] := by
  decide

/-! ### The reference encoder -/

/-- E3, E6. -/
theorem test_encodeExtended :
    encodeExtended 270 = .ok (14, [0x00, 0x01]) ∧ encodeExtended 65805 = .error .encodingOverflow := by decide
/-- E11, E14. -/
theorem test_serialize :
    serialize 23 15 (block2Payload 291 1 6) = .ok [0x82, 0x12, 0x3E] ∧ serialize 11 12 [0x78] = .error .invalidOrdering := by
  decide
/-- S3. -/
theorem test_parseOne :
    parseOne Params.default [0xB4, 0x74, 0x65, 0x6D, 0x70] 0 =
      .option 11 11 [0x74, 0x65, 0x6D, 0x70] ⟨.uriPath, 0, 0, 0, 0⟩ [] := by decide

/-! ### Witnesses: for every statement with hypotheses, states and operands that meet them all, clause by clause -/

/-- Four bytes of payload at a fresh scan (S7). -/
def uri : State := ready [0xB4, 0x74, 0x65, 0x6D, 0x70] 0

theorem witness_DecodeOfEncode : Params.default.wf ∧ strict.wf ∧
    (∀ i ∈ [Instr.optNN 12#4 12#4, .badL15 14#4, .xdecN 12#4 131071, .uriPath 131071 65804#17, .unknown 131339#18,
      .start 131071 65535#16], i.wf Params.default = true) ∧
    (Instr.untypedStrict 60#16 0 0#17).wf strict = true := by decide

theorem witness_DecodedIsWellFormed : Params.default.wf ∧
    decode Params.default (.payload 131339#18 131071 65804#17) = .ok (.unknown 131339#18) ∧
    decode Params.default (.frame [0xFE]) = .ok (.badD15 14#4) := by decide

/-- Each clause of the ordered tests at the ends of its ranges. -/
theorem witness_FormAtCursorByOrderedTests : (ready [] 0).rem = 0 ∧
    ((ready [0xFF] 0).rem ≠ 0 ∧ (ready [0xFF] 0).byteAt 0 = Params.default.payloadMarker) ∧
    ∀ b ∈ [(0xF0, 15, 0), (0xFE, 15, 14), (0x0F, 0, 15), (0xEF, 14, 15), (0x00, 0, 0), (0xCC, 12, 12), (0x0D, 0, 13),
        (0xCD, 12, 13), (0x0E, 0, 14), (0xCE, 12, 14), (0xD0, 13, 0), (0xDC, 13, 12), (0xDD, 13, 13), (0xDE, 13, 14),
        (0xE0, 14, 0), (0xEC, 14, 12), (0xED, 14, 13), ((0xEE, 14, 14) : Byte × Nat × Nat)],
      (ready [b.1] 0).rem ≠ 0 ∧ (ready [b.1] 0).byteAt 0 = b.1 ∧ b.1 ≠ Params.default.payloadMarker ∧
        b.1.toNat / 16 = b.2.1 ∧ b.1.toNat % 16 = b.2.2 := by decide

theorem witness_StepRunsHostTransaction :
    decode Params.default (.host (.cmd 2#2 0 0#16)) = .ok .step ∧ State.reset.inputs = [] ∧
    decode Params.default (.host (.bufWrite 131072 0#8)) = .error .offsetTooWide := by decide

theorem witness_StepCommandRunsFrameAtCursor : uri.phase = .ready ∧
    decode uri.cfg (.frame (if uri.rem = 0 then [] else [uri.byteAt uri.cur])) = .ok (.optNN 11#4 4#4) := by decide

theorem witness_EndOfOptionsStep : (ready [] 40000).phase = .ready ∧ (ready [] 40000).rem = 0 := by decide

theorem witness_PayloadMarkerStep :
    let s := scanOf markerB4 [0xB4, 0x74] 2 0
    s.phase = .ready ∧ s.rem ≠ 0 ∧ s.byteAt s.cur = s.cfg.payloadMarker := by decide

/-- The hypotheses of a commit. -/
abbrev commits (s : State) (i : Instr) (f : Layout) (v : Typed) : Prop :=
  s.phase = .ready ∧ s.frameAt = i ∧ s.layoutAt i = some f ∧ f.payloadAt + f.length ≤ s.rem ∧
    construct s.cfg (s.prev.toNat + f.delta) (s.slice (s.cur + f.payloadAt) f.length) = .ok v

theorem witness_OptionFormsCommit_NN : commits uri (.optNN 11#4 4#4) ⟨1, 11, 4⟩ ⟨.uriPath, 0, 0, 0, 0⟩ := by decide
theorem witness_OptionFormsCommit_N1 :
    commits (scanOf Params.default [0xBD, 0xFF] 270 0) (.optN1 11#4) ⟨2, 11, 268⟩ ⟨.uriPath, 0, 0, 0, 0⟩ := by decide
theorem witness_OptionFormsCommit_N2 :
    commits (scanOf Params.default [0xBE, 0xFF, 0xFF] 65807 0) (.optN2 11#4) ⟨3, 11, 65804⟩ ⟨.uriPath, 0, 0, 0, 0⟩ := by
  decide
theorem witness_OptionFormsCommit_1N :
    commits (ready [0xD1, 0x0A, 0x5C] 0) (.opt1N 1#4) ⟨2, 23, 1⟩ ⟨.block2, 0, 5, 1, 4⟩ := by decide
theorem witness_OptionFormsCommit_11 :
    commits (scanOf Params.default [0xDD, 0x16, 0x01] 17 0) .opt11 ⟨3, 35, 14⟩ ⟨.opaque_, 0, 0, 0, 0⟩ := by decide
theorem witness_OptionFormsCommit_12 :
    commits (scanOf Params.default [0xDE, 0x16, 0, 0] 273 0) .opt12 ⟨4, 35, 269⟩ ⟨.opaque_, 0, 0, 0, 0⟩ := by decide
theorem witness_OptionFormsCommit_2N :
    commits (scanOf plus300 [0xE3, 0x00, 0x1F, 1, 2, 3] 6 0) (.opt2N 3#4) ⟨3, 300, 3⟩ ⟨.opaque_, 0, 0, 0, 0⟩ := by decide
theorem witness_OptionFormsCommit_21 :
    commits (scanOf plus300 [0xED, 0x00, 0x1F, 0x00] 17 0) .opt21 ⟨4, 300, 13⟩ ⟨.opaque_, 0, 0, 0, 0⟩ := by decide
theorem witness_OptionFormsCommit_22 :
    commits (scanOf plus300 [0xEE, 0x00, 0x1F, 0, 0] 274 0) .opt22 ⟨5, 300, 269⟩ ⟨.opaque_, 0, 0, 0, 0⟩ := by decide

/-- The extension bytes missing; the payload one byte short; the construction failing. -/
theorem witness_OptionFormsFault :
    (let s := ready [0xDD, 0x16] 0
     s.phase = .ready ∧ s.frameAt = .opt11 ∧ (s.layoutAt .opt11).isSome ∧ s.rem < 3) ∧
    (let s := ready [0xB4, 0x74, 0x65, 0x6D] 0
     s.phase = .ready ∧ s.frameAt = .optNN 11#4 4#4 ∧ s.layoutAt (.optNN 11#4 4#4) = some ⟨1, 11, 4⟩ ∧ s.rem < 1 + 4) ∧
    (let s := ready [0xC1, 0x01] 0
     s.phase = .ready ∧ s.frameAt = .optNN 12#4 1#4 ∧ s.layoutAt (.optNN 12#4 1#4) = some ⟨1, 12, 1⟩ ∧ 1 + 1 ≤ s.rem ∧
       construct s.cfg 12 (s.slice 1 1) = .error .invalidValue) := by decide

theorem witness_BadDeltaMarkerFaults :
    let s := ready [0xFE] 0
    s.phase = .ready ∧ s.rem ≠ 0 ∧ s.byteAt s.cur = headerByte 15#4 14#4 ∧ s.byteAt s.cur ≠ s.cfg.payloadMarker := by
  decide

/-- A literal delta marker, and both extended ones with their last byte missing and present. -/
theorem witness_BadLengthMarkerFaults :
    ∀ x ∈ [([0xCF], 12#4), ([0xDF], 13#4), ([0xDF, 0], 13#4), ([0xEF, 0], 14#4), (([0xEF, 0, 0] : List Byte), 14#4)],
      (ready x.1 0).phase = .ready ∧ (ready x.1 0).rem ≠ 0 ∧ x.2.toNat ≤ 14 ∧
        (ready x.1 0).byteAt 0 = headerByte x.2 15#4 ∧ (ready x.1 0).byteAt 0 ≠ Params.default.payloadMarker := by decide

/-- Every fault of the list is the first defect of some frame, and some frame has none (the vectors Q4, Q5, Q8 to Q10). -/
theorem witness_FirstDefectIsReported : Params.default.wf ∧
    ((ready [] 0).phase = .ready ∧ (ready [] 0).rem = 0) ∧
    ((ready [0xFF] 0).phase = .ready ∧ (ready [0xFF] 0).rem ≠ 0 ∧ (ready [0xFF] 0).byteAt 0 = Params.default.payloadMarker) ∧
    ∀ x ∈ [([0xFD], some Err.malformedHeader), ([0xDF], some .truncatedInput), ([0x0F], some .malformedHeader),
        ([0x2D], some .truncatedInput), ([0x25, 0], some .truncatedInput), ([0x20, 0, 0], some .unknownOption),
        ([0xC2, 1, 1], some .malformedHeader), ([0xC1, 1], some .invalidValue), (([0xC1, 0x29] : List Byte), none)],
      (ready x.1 0).phase = .ready ∧ (ready x.1 0).rem ≠ 0 ∧ (ready x.1 0).byteAt 0 ≠ Params.default.payloadMarker ∧
        (ready x.1 0).firstDefect = x.2 := by decide

theorem witness_StepRefinesParseOne : uri.phase = .ready ∧
    parseOne uri.cfg uri.remainder uri.prev.toNat =
      .option 11 11 [0x74, 0x65, 0x6D, 0x70] ⟨.uriPath, 0, 0, 0, 0⟩ [] := by decide

/-- A literal marker at its largest, and no, one and two bytes left. -/
theorem witness_ExtendedFieldForms : (12#4).toNat ≤ 12 ∧ (ready [0, 0] 0).phase = .ready ∧
    (2 ≤ (ready [0, 0] 0).len ∧ (ready [0, 0] 0).len - 2 < 1) ∧
    (1 ≤ (ready [0, 0] 0).len ∧ 1 ≤ (ready [0, 0] 0).len - 1 ∧ (ready [0, 0] 0).len - 1 < 2) ∧
    2 ≤ (ready [0, 0] 0).len - 0 := by decide

theorem witness_ExtendedValueInRange : 1 ≤ (ready [0, 0xFF, 0xFF] 0).len ∧
    xdec (ready [0, 0xFF, 0xFF] 0) 14#4 1 = .ok (65804#17, 3) ∧ xdec (ready [0, 0xFF, 0xFF] 0) 13#4 1 = .ok (268#17, 2) ∧
    xdec (ready [0, 0xFF, 0xFF] 0) 12#4 1 = .ok (12#17, 1) := by decide

theorem witness_ExtendedFieldInverse : 65804 ≤ 65804 ∧ encodeExtended 65804 = .ok (14, [0xFF, 0xFF]) ∧
    2 ≤ (ready [0xFF, 0xFF] 0).len - 0 ∧ (ready [0xFF, 0xFF] 0).slice 0 2 = [0xFF, 0xFF] ∧
    xdec (ready [0xFF, 0xFF] 0) 14#4 0 = .ok (65804#17, 2) ∧ 65804 < 65805 := by decide

theorem witness_NumberSumNeverWraps : (65804#17).toNat ≤ 65804 := by decide

/-- Each clause with a payload that ends exactly at `LEN`. -/
theorem witness_PayloadFormsReturn :
    let s := ready [0x28, 0x12, 0x3E] 0
    s.phase = .ready ∧ s.cfg.wf ∧ 3 + (0#17).toNat ≤ s.len ∧ 0 + (3#17).toNat ≤ s.len ∧
      (0 + 1 ≤ s.len ∧ s.byteAt 0 ∈ s.cfg.contentFormats) ∧ 2 + 1 ≤ s.len ∧ 1 + 2 ≤ s.len ∧ 0 + 3 ≤ s.len ∧
      (3#16 ∈ s.cfg.registry ∧ 3#16 ≠ s.cfg.numUriPath ∧ 3#16 ≠ s.cfg.numContentFormat ∧ 3#16 ≠ s.cfg.numBlock2 ∧
        s.cfg.untypedPolicy = .opaque_) := by decide

theorem witness_PayloadFormsFault :
    let s := scanOf strict [0x01, 0x01, 0x01, 0x01] 4 0
    s.phase = .ready ∧ s.cfg.wf ∧ known s.cfg (65543#18).toNat = false ∧
      (0 + (0#17).toNat ≤ s.len ∧ (0#17).toNat ≠ 1) ∧ (0 + (2#17).toNat ≤ s.len ∧ (2#17).toNat ≠ 1) ∧
      (0 + (1#17).toNat ≤ s.len ∧ (1#17).toNat = 1 ∧ s.byteAt 0 ∉ s.cfg.contentFormats) ∧
      (0 + (4#17).toNat ≤ s.len ∧ (4#17).toNat ≠ 1 ∧ (4#17).toNat ≠ 2 ∧ (4#17).toNat ≠ 3) ∧
      (3#16 ∈ s.cfg.registry ∧ 3#16 ≠ s.cfg.numUriPath ∧ 3#16 ≠ s.cfg.numContentFormat ∧ 3#16 ≠ s.cfg.numBlock2 ∧
        s.cfg.untypedPolicy = .strict) := by decide

theorem witness_SelectedPayloadFormConstructs : uri.phase = .ready ∧ 1 + (4#17).toNat ≤ uri.len := by decide

/-- The shortest and the longest `Block2` payload. -/
theorem witness_BlockFieldsRoundTrip :
    (let s := ready [0xF0] 0
     s.phase = .ready ∧ s.cfg.wf ∧ 0 + (block2Payload 15 0 0).length ≤ s.len ∧
       s.slice 0 (block2Payload 15 0 0).length = block2Payload 15 0 0) ∧
    (let s := ready [0x01, 0x00, 0x00] 0
     0 + (block2Payload 4096 0 0).length ≤ s.len ∧ s.slice 0 (block2Payload 4096 0 0).length = block2Payload 4096 0 0) := by
  decide

theorem witness_StartBeginsAtOffsetZero : 100 ≤ cap100.bufCap ∧ cap100.bufCap < 101 := by decide

theorem witness_BufferWriteWritesOneByte :
    (Memory.wf State.reset.buf ∧ State.reset.phase ≠ .ready ∧ 131070 < State.reset.cfg.bufCap) ∧
    (Memory.wf uri.buf ∧ uri.phase = .ready) ∧ State.reset.cfg.bufCap ≤ 131071 := by decide

theorem witness_BufferReadReturnsByte : 99 < cap100.bufCap ∧ cap100.bufCap ≤ 100 := by decide

theorem witness_StepNeedsReady : State.reset.phase ≠ .ready ∧ uri.phase = .ready := by decide

theorem witness_ScanIsRepeatedStep : (ready [] 0).phase = .ready ∧ uri.phase = .ready ∧ State.reset.phase ≠ .ready := by decide

/-- Each clause has a state and a next state. -/
theorem witness_PhaseTransitions :
    (∃ t, exec .reset uri = .next t) ∧ (∃ t, exec (.start 0 0#16) State.reset = .next t) ∧
    (uri.phase = .ready ∧ ∃ t, exec .step uri = .next t) ∧
    (State.reset.phase ≠ .ready ∧ ∃ t, exec .scan State.reset = .next t) ∧ ∃ t, exec (.bufwr 0 0#8) State.reset = .next t :=
  ⟨⟨_, rfl⟩, ⟨_, rfl⟩, ⟨rfl, _, rfl⟩, ⟨by decide, _, rfl⟩, ⟨_, rfl⟩⟩

theorem witness_StepFrame :
    (∃ t, exec .step (ready [] 5) = .next t ∧ t.kind ≠ .option ∧ t.kind ≠ .payloadMarker) ∧
    ∃ t, exec .step (ready [0xB0] 0) = .next t ∧ t.kind = .option :=
  ⟨⟨_, rfl, by decide, by decide⟩, _, rfl, by decide⟩

/-- Each of the thirteen forms acts somewhere. -/
theorem witness_FrameFormsActOnlyWhereTheyStand :
    ∀ x ∈ [(Instr.eoo, ([] : List Byte)), (.pmark, [0xFF]), (.optNN 11#4 0#4, [0xB0]), (.optN1 11#4, [0xBD]),
        (.optN2 11#4, [0xBE]), (.opt1N 0#4, [0xD0]), (.opt11, [0xDD]), (.opt12, [0xDE]), (.opt2N 0#4, [0xE0]),
        (.opt21, [0xED]), (.opt22, [0xEE]), (.badD15 0#4, [0xF0]), (.badL15 0#4, [0x0F])],
      (view State.phase (exec x.1 (ready x.2 0))).isSome = true := by decide

/-- A form off its place, a position and a payload one past the window, and operands that select no such form. -/
theorem witness_UnperformedFormsStop :
    let s := ready [0xB4, 0x28] 0
    State.reset.phase ≠ .ready ∧ s.frameAt ≠ .eoo ∧ s.phase = .ready ∧ s.len < 3 ∧ 12 < (13#4).toNat ∧
      (known s.cfg (11#18).toNat = true ∧ s.len < 1 + (2#17).toNat) ∧ (1 ≤ (1#17).toNat ∧ (3#17).toNat ≤ 3) ∧
      2#16 ∉ s.cfg.registry ∧ 11#16 = s.cfg.numUriPath ∧ 12#16 = s.cfg.numContentFormat ∧ 23#16 = s.cfg.numBlock2 ∧
      s.cfg.untypedPolicy = .opaque_ ∧ strict.untypedPolicy = .strict := by decide

/-- No write at all, a write in `READY`, a write past the buffer. -/
theorem witness_OnlyBufferWriteChangesBytes :
    (∃ t, exec .step (ready [] 0) = .next t) ∧ (∃ t, exec (.bufwr 0 0#8) (ready [] 0) = .next t) ∧
    ∃ t, exec (.bufwr 131071 0#8) State.reset = .next t ∧ State.reset.cfg.bufCap ≤ 131071 :=
  ⟨⟨_, rfl⟩, ⟨_, rfl⟩, _, rfl, by decide⟩

theorem witness_OnlyStartAndResetWriteLen : ∃ t, exec .step (ready [] 0) = .next t := ⟨_, rfl⟩

theorem witness_PrevFollowsOptions : ∃ t, exec .step (ready [0x10] 0) = .next t ∧ t.prev ≠ 0#16 := ⟨_, rfl, by decide⟩

theorem witness_ParametersNeverChange : ∃ t, exec .reset uri = .next t := ⟨_, rfl⟩

theorem witness_OutputOnlyGrowsBySteps :
    (∃ t, exec .step (ready [] 0) = .next t) ∧ (State.reset.phase ≠ .ready ∧ ∃ t, exec .step State.reset = .next t) ∧
    ∃ t, exec .nop uri = .next t :=
  ⟨⟨_, rfl⟩, ⟨by decide, _, rfl⟩, _, rfl⟩

theorem witness_HaltKeepsRegisters :
    let s := { ready [] 0 with phase := .halt, kind := .endOfOptions }
    s.phase = .halt ∧ ∃ t, exec .step s = .next t := ⟨rfl, _, rfl⟩

theorem witness_StepIsAllOrNothing : uri.phase = .ready ∧ ∃ t, exec .step uri = .next t := ⟨rfl, _, rfl⟩

theorem witness_FaultEntryState : (ready [0xBD] 0).phase = .ready ∧
    ∃ t, exec .step (ready [0xBD] 0) = .next t ∧ t.kind = .fault := ⟨rfl, _, rfl, by decide⟩

/-- Two states that differ in a byte past `LEN` and in the results of an earlier step. -/
theorem witness_StepDependsOnFrameInputsOnly :
    let s := scanOf Params.default [0xB0, 0x01] 1 0
    let t := { scanOf Params.default [0xB0, 0x02] 1 0 with num := 7#16, kind := .option }
    s.phase = .ready ∧ s.sameFrameInputs t := by decide

/-- A state of a scan that meets the invariant. -/
theorem ready_inv : (ready [0x10] 0).Inv where
  params := by decide
  window := by decide
  buffer := by decide
  result := by decide
  error := by decide
  phases := by decide
  ports := by decide

theorem witness_EveryInstructionKeepsInv : (ready [0x10] 0).Inv ∧ ∃ t, exec .step (ready [0x10] 0) = .next t :=
  ⟨ready_inv, _, rfl⟩

theorem witness_EveryStepKeepsInv : (ready [0x10] 0).Inv ∧ ∃ t, step (ready [0x10] 0) = .next t := ⟨ready_inv, _, rfl⟩

theorem witness_RunsNeverStop : (ready [0x10] 0).Inv := ready_inv

/-- One option of each constructor. -/
theorem witness_SerializedOptionParsesBack :
    ∀ x ∈ [(11, [0x74, 0x65], [0xB2, 0x74, 0x65]), (12, [0x28], [0xC1, 0x28]), (23, [0x5C], [0xD1, 0x0A, 0x5C]),
        ((3, [0x61], [0x31, 0x61]) : Nat × List Byte × List Byte)],
      (ready x.2.2 0).phase = .ready ∧ serialize x.1 (ready x.2.2 0).prev.toNat x.2.1 = .ok x.2.2 ∧
        x.2.2.length ≤ (ready x.2.2 0).rem ∧ (ready x.2.2 0).slice 0 x.2.2.length = x.2.2 ∧
        (ready x.2.2 0).byteAt 0 ≠ Params.default.payloadMarker ∧ known Params.default x.1 = true ∧
        (x.1 = 12 → x.2.1.head?.any (· ∈ Params.default.contentFormats)) ∧
        (x.1 = 23 → 1 ≤ x.2.1.length ∧ x.2.1.length ≤ 3) ∧ Params.default.untypedPolicy = .opaque_ := by decide

/-- The bytes of the options of P1, and the headers that stand in them. -/
theorem witness_SerializedListScansBack :
    let options : List (Nat × List Byte) := [(11, [0x74, 0x65, 0x6D, 0x70]), (12, [0x28])]
    let bytes : List Byte := [0xB4, 0x74, 0x65, 0x6D, 0x70, 0x11, 0x28]
    (∀ s ∈ [ready bytes 0, ready (bytes ++ [0xFF, 0x01, 0x02]) 0],
      s.phase = .ready ∧ serializeAll s.prev.toNat options = .ok bytes ∧ bytes.length ≤ s.rem ∧
        s.slice s.cur bytes.length = bytes ∧
        (s.rem = bytes.length ∨ s.byteAt (s.cur + bytes.length) = s.cfg.payloadMarker)) ∧
    (∀ o ∈ options, ∃ v : Typed, construct Params.default o.1 o.2 = .ok v) ∧
    ∀ (before after : List (Nat × List Byte)) (o : Nat × List Byte) (frame : List Byte), options = before ++ o :: after →
      serialize o.1 ((before.getLast?.map Prod.fst).getD 0) o.2 = .ok frame →
      frame.head? ≠ some Params.default.payloadMarker := by
  refine ⟨by decide, ?_, ?_⟩
  · intro o ho
    simp only [List.mem_cons, List.not_mem_nil, or_false] at ho
    rcases ho with rfl | rfl
    · exact ⟨⟨.uriPath, 0, 0, 0, 0⟩, by decide⟩
    · exact ⟨⟨.contentFormat, 40, 0, 0, 0⟩, by decide⟩
  · intro before after o frame he hs
    rcases before with _ | ⟨a, _ | ⟨b, before⟩⟩
    · cases he; cases hs; decide
    · cases he; cases hs; decide
    · have := congrArg List.length he
      simp at this

/-- A serialized option of each typed constructor (E10 with `prev = 11`, E8, E9), and the longest `Block2` payload. -/
theorem witness_TypedFieldsParseBack : Params.default.wf ∧
    (∀ frame ∈ [[0xC1, 0x5C], [0xC3, 0x01, 0x00, 0x00], [0x11, 0x28], ([0x03, 0x61, 0x62, 0x63] : List Byte)],
      (ready frame 11).phase = .ready ∧ frame.length ≤ (ready frame 11).rem ∧ (ready frame 11).slice 0 frame.length = frame ∧
        (ready frame 11).byteAt 0 ≠ Params.default.payloadMarker) ∧
    serialize 23 11 (block2Payload 5 1 4) = .ok [0xC1, 0x5C] ∧
    serialize 23 11 (block2Payload 4096 0 0) = .ok [0xC3, 0x01, 0x00, 0x00] ∧
    contentFormatPayload Params.default 40 = .ok [0x28] ∧ serialize 12 11 [0x28] = .ok [0x11, 0x28] ∧
    serialize 11 11 (uriPathPayload [0x61, 0x62, 0x63]) = .ok [0x03, 0x61, 0x62, 0x63] := by decide

end Sys2Proof.Tests
end

