-- ==== Sys2Proof/Proofs/SpecWords.lean ====
section
/-! PROOFS. The words the spec writes out are the words the encoder writes, so the decoder gives their instructions back. -/

namespace Sys2Proof

open Config

theorem default_wf : Params.default.wf := by decide

/-- What the encoder writes for an instruction, read under the default parameters. -/
theorem decode_encode_default {i : Instr} (hi : Laws.Codec.Statement i) (hwf : i.wf Params.default = true) :
    decode Params.default (encode Params.default i) = .ok i := hi _ default_wf hwf

/-- A table word that is an instruction's encoding decodes to that instruction. -/
theorem decodeTableWord_of_encode {i : Instr} {nbits w : Nat} (hi : Laws.Codec.Statement i)
    (hwf : i.wf Params.default = true) (hw : tableCode nbits w = encode Params.default i) :
    decodeTableWord nbits w = some i := by
  rw [decodeTableWord, hw, decode_encode_default hi hwf]

/-- `UNKNOWN` is read wherever the payload lies (42_value_decode.md R151); `Laws.Codec.unknown` has only the one place that
the encoder writes. -/
theorem decode_unregistered {P : Params} {numx : Sum} {voff : Nat} {l : Ext} (hr : registered P numx = false)
    (hn : numx.toNat ≤ 131339) (hl : l.toNat ≤ 65804) (hv : fits P voff = true) :
    decode P (.payload numx voff l) = .ok (.unknown numx) := by
  rw [decode, if_neg (by omega), if_neg (by omega), if_pos hv, decodePayload, if_pos hr]

open Laws.Codec in
/-- Settles O1: each word is the encoding of its instruction, which the decoder gives back; only the `UNKNOWN` word, whose
payload lies elsewhere than the encoder's, is read directly. -/
theorem specWordsDecode : Obligations.SpecWordsDecode := by
  unfold Obligations.SpecWordsDecode
  refine ⟨?optNN, ?optN1, ?optN2, ?opt1N, ?opt11, ?opt12, ?opt2N, ?opt21, ?opt22, ?badD15, ?badL15, ?pmark, ?eoo,
    ?xdecN, ?xdec1, ?block21, ?unknown, ?start, ?step, ?scan⟩
  case optNN => exact decodeTableWord_of_encode (optNN 11#4 4#4) rfl rfl
  case optN1 => exact decodeTableWord_of_encode (optN1 11#4) rfl rfl
  case optN2 => exact decodeTableWord_of_encode (optN2 0#4) rfl rfl
  case opt1N => exact decodeTableWord_of_encode (opt1N 1#4) rfl rfl
  case opt11 => exact decodeTableWord_of_encode opt11 rfl rfl
  case opt12 => exact decodeTableWord_of_encode opt12 rfl rfl
  case opt2N => exact decodeTableWord_of_encode (opt2N 3#4) rfl rfl
  case opt21 => exact decodeTableWord_of_encode opt21 rfl rfl
  case opt22 => exact decodeTableWord_of_encode opt22 rfl rfl
  case badD15 => exact decodeTableWord_of_encode (badD15 1#4) rfl rfl
  case badL15 => exact decodeTableWord_of_encode (badL15 13#4) rfl rfl
  case pmark => exact decodeTableWord_of_encode pmark rfl rfl
  case eoo => exact decodeTableWord_of_encode eoo rfl rfl
  case xdecN => exact decode_encode_default (xdecN 12#4 7) rfl
  case xdec1 => exact decode_encode_default (xdec1 1) rfl
  case block21 => exact decode_encode_default (block21 2) rfl
  case unknown => exact decode_unregistered (by decide) (by decide) (by decide) (by decide)
  case start => exact decode_encode_default (start 5 0#16) rfl
  case step => exact decode_encode_default step rfl
  case scan => exact decode_encode_default scan rfl

end Sys2Proof
end

