-- ==== Sys2Proof/Proofs/Invariant.lean ====
section
/-! PROOFS. The invariant (10_state.md R21 to R40): the state after reset has it, every operation on the state keeps it, and
so every instruction and every step of the machine keep it. -/

namespace Sys2Proof.Machine

open Sys2Proof.Config

/-- Settles O47: after reset nothing is written, held or driven, and the default parameters are well formed. -/
theorem resetStateInv : Obligations.ResetStateInv where
  params := default_wf
  window := by decide
  buffer := ⟨Memory.wf_nil, by simp [State.reset]⟩
  result := ⟨fun _ => by decide, fun hk => by cases hk⟩
  error := by decide
  phases := by decide
  ports := by simp [State.reset]

variable {s t : State}

/-! ### The option registers after a result that is no option -/

theorem clearOption_optionClear (s : State) : s.clearOption.optionClear := by simp [State.optionClear]

theorem resultOk_of_clear (hk : s.kind ≠ .option) (hc : s.optionClear) : s.resultOk :=
  ⟨fun _ => hc, fun h => absurd h hk⟩

/-! ### The host's operations -/

theorem give_inv (h : s.Inv) (r : Answer) : (s.give r).Inv :=
  ⟨h.params, h.window, h.buffer, h.result, h.error, h.phases, h.ports⟩

/-- Taking the first transaction leaves transactions that were already to come. -/
theorem dropInput_inv (h : s.Inv) {rest : List HostInput} (hr : rest ⊆ s.inputs) : (s.dropInput rest).Inv :=
  ⟨h.params, h.window, h.buffer, h.result, h.error, h.phases, fun x hx => h.ports x (hr hx)⟩

theorem writeByte_inv (h : s.Inv) {a : Nat} (ha : a < s.cfg.bufCap) (v : Byte) : (s.writeByte a v).Inv where
  params := h.params
  window := h.window
  buffer := by
    obtain ⟨hwf, hcap⟩ := h.buffer
    refine ⟨Memory.wf_write hwf a v, fun c hc => ?_⟩
    rcases Memory.mem_write hc with rfl | hc
    · exact ha
    · exact hcap c hc
  result := h.result
  error := h.error
  phases := h.phases
  ports := h.ports

theorem resetRegisters_inv (h : s.Inv) : (resetRegisters s).Inv where
  params := h.params
  window := by simp [State.windowOk]
  buffer := ⟨Memory.wf_nil, by simp⟩
  result := resultOk_of_clear (by simp) (clearOption_optionClear s)
  error := by simp [State.errOk]
  phases := by simp [State.phaseOk]
  ports := h.ports

theorem startScan_inv (h : s.Inv) {n : Nat} (hn : n ≤ s.cfg.bufCap) (q : OptNum) : (startScan n q s).Inv where
  params := h.params
  window := ⟨Nat.zero_le n, hn⟩
  buffer := h.buffer
  result := resultOk_of_clear (by simp) (clearOption_optionClear s)
  error := by simp [State.errOk]
  phases := by simp [State.phaseOk]
  ports := h.ports

/-! ### The outcomes of a step -/

theorem faultEntry_inv (h : s.Inv) {e : Err} (he : e.raised) : (faultEntry e s).Inv where
  params := h.params
  window := h.window
  buffer := h.buffer
  result := resultOk_of_clear (by simp) (clearOption_optionClear s)
  error := by rcases he with rfl | rfl | rfl | rfl <;> simp [State.errOk]
  phases := by simp [State.phaseOk]
  ports := h.ports

/-- With no byte left the cursor stands at the end of the window. -/
theorem endOfOptions_inv (h : s.Inv) (hr : s.rem = 0) : (endOfOptions s).Inv where
  params := h.params
  window := h.window
  buffer := h.buffer
  result := resultOk_of_clear (by simp) (clearOption_optionClear s)
  error := by simp [State.errOk]
  phases := by
    obtain ⟨hle, -⟩ := h.window
    have hcur : s.cur = s.len := Nat.le_antisymm hle (Nat.sub_eq_zero_iff_le.1 hr)
    simp [State.phaseOk, hcur]
  ports := h.ports

/-- A byte is left, so the cursor can move past it. -/
theorem payloadMarker_inv (h : s.Inv) (hr : s.rem ≠ 0) : (payloadMarker s).Inv where
  params := h.params
  window := ⟨Nat.lt_of_sub_ne_zero hr, h.window.2⟩
  buffer := h.buffer
  result := resultOk_of_clear (by simp) (clearOption_optionClear s)
  error := by simp [State.errOk]
  phases := by simp [State.phaseOk]
  ports := h.ports

/-- The number of an accepted sum is a member of the registry (10_state.md R29). -/
theorem setWidth_mem_registry {P : Params} {numx : Sum} (h : registered P numx = true) :
    numx.setWidth 16 ∈ P.registry := by
  obtain ⟨r, hr, hn⟩ := registered_iff.1 h
  have : numx.setWidth 16 = r := BitVec.eq_of_toNat_eq ((registered_toNat h).trans hn.symm)
  exact this ▸ hr

/-- What the option registers hold after a commit (10_state.md R29 to R35). -/
theorem commit_optionHeld {d l : Ext} {p : Nat} {v : Typed} (ha : Accepted s d l p v) :
    (commit d l p v s).optionHeld := by
  obtain ⟨hreg, hvariant⟩ := vdec_ok s ha.constructed
  exact ⟨rfl, setWidth_mem_registry hreg, ha.delta_le, ha.length_le, rfl, hvariant⟩

theorem commit_inv (h : s.Inv) (hp : s.phase = .ready) {d l : Ext} {p : Nat} {v : Typed} (ha : Accepted s d l p v) :
    (commit d l p v s).Inv where
  params := h.params
  window := ⟨ha.inside, h.window.2⟩
  buffer := h.buffer
  result := ⟨fun hk => absurd rfl hk, fun _ => commit_optionHeld ha⟩
  error := by simp [State.errOk]
  phases := by simp [State.phaseOk, hp]
  ports := h.ports

theorem frameStep_inv (hp : s.phase = .ready) (h : s.Inv) : (frameStep s).Inv := by
  rcases frameStep_cases s with ⟨hr, hf⟩ | ⟨hr, -, hf⟩ | ⟨e, -, -, he, hf⟩ | ⟨d, l, p, v, -, -, ha, hf⟩ <;> rw [hf]
  · exact endOfOptions_inv h hr
  · exact payloadMarker_inv h hr
  · exact faultEntry_inv h he
  · exact commit_inv h hp ha

/-! ### Instructions and steps of the machine -/

theorem exec_inv {i : Instr} (hs : s.Inv) (h : exec i s = .next t) : t.Inv := by
  rcases exec_cases s h with rfl | ⟨hp, -, rfl⟩ | ⟨-, rfl⟩ | ⟨n, q, -, hn, rfl⟩ | ⟨-, rfl⟩ | ⟨a, v, -, -, ha, rfl⟩ |
    ⟨r, rfl⟩ | ⟨e, -, he, rfl⟩
  · exact hs
  · exact frameStep_inv hp hs
  · exact scanSteps_induct (fun _ => frameStep_inv) _ s hs
  · exact startScan_inv hs hn q
  · exact resetRegisters_inv hs
  · exact writeByte_inv hs ha v
  · exact give_inv hs r
  · exact faultEntry_inv hs he

/-- Settles O48: each operation an instruction can amount to keeps the invariant. -/
theorem everyInstructionKeepsInv : Obligations.EveryInstructionKeepsInv := fun _ _ _ => exec_inv

/-- A step of the machine changes nothing, or takes the host's first transaction and runs its instruction. -/
theorem step_cases (h : step s = .next t) :
    t = s ∨ ∃ x rest i, s.inputs = x :: rest ∧ decodeInput s x = .ok i ∧ exec i (s.dropInput rest) = .next t := by
  unfold step at h
  split at h
  · cases h; exact .inl rfl
  · rename_i x rest hin
    split at h
    · exact .inr ⟨x, rest, _, hin, ‹_›, h⟩
    · cases h

/-- Settles O49: taking a transaction keeps the invariant, and so does its instruction. -/
theorem everyStepKeepsInv : Obligations.EveryStepKeepsInv := by
  intro s t hs h
  rcases step_cases h with rfl | ⟨x, rest, i, hin, -, he⟩
  · exact hs
  · exact exec_inv (dropInput_inv hs (hin ▸ List.subset_cons_self x rest)) he

end Sys2Proof.Machine
end

