-- ==== Sys2Proof/Proofs/StateRules.lean ====
section
/-! PROOFS. The rules of single registers (10_state.md): which instruction writes `LEN`, `PREV`, the parameters and `OUT`, the
width of `PREV + d`, the output lines, and the registers right after reset. -/

namespace Sys2Proof.Machine

variable {s t : State}

/-! ### The sum and the output lines -/

/-- Settles O19: a decoded delta leaves the 18-bit sum below its wrap, so membership is asked of the true sum. -/
theorem numberSumNeverWraps : Obligations.NumberSumNeverWraps := by
  intro s d hd
  have hsum := numx_toNat s hd
  exact ⟨hsum, by rw [registered_iff, hsum]⟩

/-- Settles O44: each line is the test of its register. -/
theorem outputLinesFollowRegisters : Obligations.OutputLinesFollowRegisters := by
  intro s
  simp [State.haltLine, State.faultLine]

/-- Settles O46: every register of the reset state is 0 and no byte is listed as written. -/
theorem resetStateRegisters : Obligations.ResetStateRegisters :=
  ⟨rfl, rfl, rfl, rfl, rfl, rfl, rfl, rfl, rfl, rfl, rfl, rfl, rfl, rfl, rfl, rfl, rfl, rfl, fun _ => rfl⟩

/-! ### What a scan leaves alone -/

@[simp] theorem scanSteps_len (n : Nat) (s : State) : (scanSteps n s).len = s.len :=
  scanSteps_induct (p := fun t => t.len = s.len) (fun t _ h => (frameStep_len t).trans h) n s rfl

@[simp] theorem scanSteps_cfg (n : Nat) (s : State) : (scanSteps n s).cfg = s.cfg :=
  scanSteps_induct (p := fun t => t.cfg = s.cfg) (fun t _ h => (frameStep_cfg t).trans h) n s rfl

theorem frameStep_out_prefix (s : State) : s.out <+: (frameStep s).out := by
  obtain ⟨r, hr⟩ := frameStep_out s
  exact hr ▸ List.prefix_append _ _

/-- What a scan finds in `OUT` stays there, in front of what it emits. -/
theorem scanSteps_out_prefix (n : Nat) (s : State) : s.out <+: (scanSteps n s).out :=
  scanSteps_induct (p := fun t => s.out <+: t.out) (fun t _ h => h.trans (frameStep_out_prefix t)) n s List.prefix_rfl

/-! ### `LEN` and the parameters -/

/-- Settles O37: a step and a scan keep `LEN`, and of the other operations only `START` and `RESET` write it. -/
theorem onlyStartAndResetWriteLen : Obligations.OnlyStartAndResetWriteLen := by
  intro i s t h hreset hstart
  rcases exec_cases s h with rfl | ⟨-, -, rfl⟩ | ⟨-, rfl⟩ | ⟨n, q, hi, -, -⟩ | ⟨hi, -⟩ | ⟨a, v, -, -, -, rfl⟩ |
    ⟨r, rfl⟩ | ⟨e, -, -, rfl⟩
  · rfl
  · exact frameStep_len s
  · exact scanSteps_len _ s
  · exact absurd hi (hstart n q)
  · exact absurd hi hreset
  · exact writeByte_len s a v
  · exact give_len s r
  · exact faultEntry_len s e

/-- Settles O39: no operation on the state writes the parameters. -/
theorem parametersNeverChange : Obligations.ParametersNeverChange := by
  intro i s t h
  rcases exec_cases s h with rfl | ⟨-, -, rfl⟩ | ⟨-, rfl⟩ | ⟨n, q, -, -, rfl⟩ | ⟨-, rfl⟩ | ⟨a, v, -, -, -, rfl⟩ |
    ⟨r, rfl⟩ | ⟨e, -, -, rfl⟩
  · rfl
  · exact frameStep_cfg s
  · exact scanSteps_cfg _ s
  · exact startScan_cfg s n q
  · exact resetRegisters_cfg s
  · exact writeByte_cfg s a v
  · exact give_cfg s r
  · exact faultEntry_cfg s e

/-! ### `PREV` -/

/-- A step that changes `PREV` is the commit of an option (41_frame_parse.md R123). -/
theorem frameStep_prev_of_ne (h : (frameStep s).prev ≠ s.prev) :
    (frameStep s).kind = .option ∧ (frameStep s).prev = (frameStep s).num := by
  rcases frameStep_cases s with ⟨-, hf⟩ | ⟨-, -, hf⟩ | ⟨e, -, -, -, hf⟩ | ⟨d, l, p, v, -, -, -, hf⟩ <;> rw [hf] at h ⊢
  · exact absurd (endOfOptions_prev s) h
  · exact absurd (payloadMarker_prev s) h
  · exact absurd (faultEntry_prev s e) h
  · exact ⟨rfl, rfl⟩

/-- Settles O38: of what is left beside `START`, `RESET` and `SCAN`, only a step writes `PREV`. -/
theorem prevFollowsOptions : Obligations.PrevFollowsOptions := by
  intro i s t h hreset hstart hscan hprev
  rcases exec_cases s h with rfl | ⟨-, -, rfl⟩ | ⟨hi, -⟩ | ⟨n, q, hi, -, -⟩ | ⟨hi, -⟩ | ⟨a, v, -, -, -, rfl⟩ |
    ⟨r, rfl⟩ | ⟨e, -, -, rfl⟩
  · exact absurd rfl hprev
  · exact frameStep_prev_of_ne hprev
  · exact absurd hi hscan
  · exact absurd hi (hstart n q)
  · exact absurd hi hreset
  · exact absurd (writeByte_prev s a v) hprev
  · exact absurd (give_prev s r) hprev
  · exact absurd (faultEntry_prev s e) hprev

/-! ### `OUT` -/

/-- No instruction recalls a record. -/
theorem exec_out_prefix {i : Instr} (h : exec i s = .next t) : s.out <+: t.out := by
  rcases exec_cases s h with rfl | ⟨-, -, rfl⟩ | ⟨-, rfl⟩ | ⟨n, q, -, -, rfl⟩ | ⟨-, rfl⟩ | ⟨a, v, -, -, -, rfl⟩ |
    ⟨r, rfl⟩ | ⟨e, -, -, rfl⟩
  · exact List.prefix_rfl
  · exact frameStep_out_prefix s
  · exact scanSteps_out_prefix _ s
  · exact startScan_out s n q ▸ List.prefix_rfl
  · exact resetRegisters_out s ▸ List.prefix_rfl
  · exact writeByte_out s a v ▸ List.prefix_rfl
  · exact give_out s r ▸ List.prefix_rfl
  · exact faultEntry_out s e ▸ List.prefix_append _ _

/-- Outside `READY` no step runs, so nothing is emitted. -/
theorem exec_out_not_ready {i : Instr} (hp : s.phase ≠ .ready) (h : exec i s = .next t) : t.out = s.out := by
  rcases exec_cases s h with rfl | ⟨hr, -⟩ | ⟨-, rfl⟩ | ⟨n, q, -, -, rfl⟩ | ⟨-, rfl⟩ | ⟨a, v, -, -, -, rfl⟩ |
    ⟨r, rfl⟩ | ⟨e, hr, -⟩
  · rfl
  · exact absurd hr hp
  · rw [scanSteps_not s hp]
  · exact startScan_out s n q
  · exact resetRegisters_out s
  · exact writeByte_out s a v
  · exact give_out s r
  · exact absurd hr hp

/-- In every phase, a command that runs no step and a port operation emit nothing. -/
theorem exec_out_host {i : Instr} {n a : Nat} {q : OptNum} {v : Byte} {r : Nibble}
    (hi : i ∈ [Instr.nop, .reset, .start n q, .bufwr a v, .bufrd a, .regrd r]) (h : exec i s = .next t) :
    t.out = s.out := by
  simp only [List.mem_cons, List.not_mem_nil, or_false] at hi
  rcases hi with rfl | rfl | rfl | rfl | rfl | rfl
  · cases h; rfl
  · cases h; rfl
  · simp only [exec, execStart] at h
    split at h <;> cases h <;> rfl
  · simp only [exec, execBufwr] at h
    split at h <;> cases h <;> rfl
  · cases h; rfl
  · cases h; rfl

/-- Settles O40: the three claims are `exec_out_prefix`, `exec_out_not_ready` and `exec_out_host`. -/
theorem outputOnlyGrowsBySteps : Obligations.OutputOnlyGrowsBySteps := by
  intro i s t h
  obtain ⟨rs, hrs⟩ := exec_out_prefix h
  exact ⟨⟨rs, hrs.symm⟩, fun hp => exec_out_not_ready hp h, fun _ _ _ _ _ hi => exec_out_host hi h⟩

end Sys2Proof.Machine
end

