-- ==== Sys2Proof/Proofs/BufferRules.lean ====
section
/-! PROOFS. The option buffer under the instructions (20_memory.md R61): the block only reads it. -/

namespace Sys2Proof.Machine

variable {s t : State}

@[simp] theorem byteAt_scanSteps (n : Nat) (s : State) (b : Nat) : (scanSteps n s).byteAt b = s.byteAt b :=
  scanSteps_induct (p := fun t => t.byteAt b = s.byteAt b) (fun t _ h => (byteAt_frameStep t b).trans h) n s rfl

/-- Apart from `RESET`, an instruction that is no `BUFWR` the buffer accepts (43_commands_scanner.md R183) keeps every
byte. -/
theorem exec_byteAt {i : Instr} (h : exec i s = .next t) (hreset : i ≠ .reset)
    (hrefused : ∀ (a : Nat) (v : Byte), i = .bufwr a v → s.phase = .ready ∨ s.cfg.bufCap ≤ a) (b : Nat) :
    t.byteAt b = s.byteAt b := by
  rcases exec_cases s h with rfl | ⟨-, -, rfl⟩ | ⟨-, rfl⟩ | ⟨n, q, -, -, rfl⟩ | ⟨hi, -⟩ | ⟨a, v, hi, hp, ha, -⟩ |
    ⟨r, rfl⟩ | ⟨e, -, -, rfl⟩
  · rfl
  · exact byteAt_frameStep s b
  · exact byteAt_scanSteps _ s b
  · exact State.byteAt_startScan s b n q
  · exact absurd hi hreset
  · rcases hrefused a v hi with hr | hout
    · exact absurd hr hp
    · exact absurd ha hout.not_gt
  · exact State.byteAt_give s b r
  · exact State.byteAt_faultEntry s b e

/-- Settles O36: no `BUFWR` at all and a `BUFWR` that is refused both keep every byte. -/
theorem onlyBufferWriteChangesBytes : Obligations.OnlyBufferWriteChangesBytes := by
  intro i s t h hreset
  constructor
  · intro hno
    exact exec_byteAt h hreset fun a v hi => absurd hi (hno a v)
  · intro a v hi hrefused
    subst hi
    refine exec_byteAt h hreset fun a' v' he => ?_
    cases he
    exact hrefused

end Sys2Proof.Machine
end

