-- ==== Sys2Proof/Proofs/Encoding.lean ====
section
/-! PROOFS. The decoder and the encoder against one another (30_encoding.md R72 to R83): what a header byte, a marker, a
payload's number and length, and a host transaction can decode to, each said once; from these, that decoding and encoding are
inverse and that only well-formed instructions are decoded. -/

namespace Sys2Proof

open Config

variable {P : Params}

/-! ### Decode of encode -/

open Laws.Codec in
/-- The lemmas of `Laws.Codec`, one for each constructor, put together. -/
theorem decode_encode : ∀ i : Instr, Statement i
  | .optNN dm lm => optNN dm lm
  | .optN1 dm => optN1 dm
  | .optN2 dm => optN2 dm
  | .opt1N lm => opt1N lm
  | .opt11 => opt11
  | .opt12 => opt12
  | .opt2N lm => opt2N lm
  | .opt21 => opt21
  | .opt22 => opt22
  | .badD15 lm => badD15 lm
  | .badL15 dm => badL15 dm
  | .pmark => pmark
  | .eoo => eoo
  | .xdecN m p => xdecN m p
  | .xdec1 p => xdec1 p
  | .xdec2 p => xdec2 p
  | .xdecX p => xdecX p
  | .uriPath voff l => uriPath voff l
  | .contentFormat voff l => contentFormat voff l
  | .block21 voff => block21 voff
  | .block22 voff => block22 voff
  | .block23 voff => block23 voff
  | .block2BadLen voff l => block2BadLen voff l
  | .opaqueOpt num voff l => opaqueOpt num voff l
  | .untypedStrict num voff l => untypedStrict num voff l
  | .unknown numx => unknown numx
  | .nop => nop
  | .start lenIn prevIn => start lenIn prevIn
  | .step => step
  | .scan => scan
  | .reset => reset
  | .bufwr a v => bufwr a v
  | .bufrd a => bufrd a
  | .regrd r => regrd r

/-- Settles O2: `Laws.Codec` for each constructor. -/
theorem decodeOfEncode : Obligations.DecodeOfEncode := fun P i => decode_encode i P

/-! ### Header bytes -/

/-- The form of two markers is encoded with those two markers: each arm of the classification fixes the nibbles that its form
does not carry. -/
theorem encode_headerForm (dm lm : Nibble) : encode P (headerForm dm lm) = .frame [headerByte dm lm] := by
  unfold headerForm
  split
  all_goals
    simp only [markerClass_literal, markerClass_one, markerClass_two, markerClass_reserved] at *
    subst_vars
    rfl

/-- Settles O4: the payload marker is the encoding of `PMARK`, and any other byte that of its two markers. -/
theorem headerByteReencodes : Obligations.HeaderByteReencodes := by
  intro P h
  by_cases hm : h = P.payloadMarker
  · rw [hm, decodeHeader_marker, encode]
  · rw [decodeHeader, if_neg hm, encode_headerForm, headerByte_markers]

/-- The form of an option header carries a nibble only of the class its arm of the classification admits (30_encoding.md
R79). -/
theorem headerForm_wf {dm lm : Nibble} (h : optionHeader P dm lm = true) : (headerForm dm lm).wf P = true := by
  unfold headerForm
  split
  all_goals
    simp only [markerClass_literal, markerClass_one, markerClass_two, markerClass_reserved] at *
    subst_vars
    simp_all [Instr.wf, markerClass_literal]

theorem decodeHeader_wf (h : Byte) : (decodeHeader P h).wf P = true := by
  by_cases hm : h = P.payloadMarker
  · rw [hm, decodeHeader_marker, Instr.wf]
  · rw [decodeHeader, if_neg hm]
    exact headerForm_wf (by simp [optionHeader, hm])

theorem decodeFrame_wf (bytes : List Byte) : (decodeFrame P bytes).wf P = true := by
  cases bytes with
  | nil => rfl
  | cons h _ => exact decodeHeader_wf h

/-! ### The ordered tests -/

theorem markerClass_of_toNat_13 {m : Nibble} (h : m.toNat = 13) : markerClass m = .one := by simp [markerClass, h]
theorem markerClass_of_toNat_14 {m : Nibble} (h : m.toNat = 14) : markerClass m = .two := by simp [markerClass, h]
theorem markerClass_of_toNat_15 {m : Nibble} (h : m.toNat = 15) : markerClass m = .reserved := by simp [markerClass, h]

theorem headerForm_badD15 {dm lm : Nibble} (hd : dm.toNat = 15) : headerForm dm lm = .badD15 lm := by
  simp only [headerForm, markerClass_of_toNat_15 hd]

/-- Whatever the class of the delta marker, unless it is reserved itself. -/
theorem headerForm_badL15 {dm lm : Nibble} (hd : dm.toNat ≤ 14) (hl : lm.toNat = 15) : headerForm dm lm = .badL15 dm := by
  rw [headerForm, markerClass_of_toNat_15 hl]
  cases hc : markerClass dm with
  | literal | one | two => rfl
  | reserved =>
    rw [markerClass_reserved.1 hc] at hd
    exact absurd hd (by decide)

/-- Settles O5: the nibbles as numbers are the values of the two markers, and each test fixes their classes. -/
theorem formAtCursorByOrderedTests : Obligations.FormAtCursorByOrderedTests := by
  intro s
  refine ⟨Machine.frameAt_zero s, fun hr => ?_⟩
  intro h dm lm
  have hf : s.frameAt = decodeHeader s.cfg h := Machine.frameAt_nonzero s hr
  refine ⟨fun hm => by rw [hf, hm, decodeHeader_marker], fun hm => ?_⟩
  rw [decodeHeader, if_neg hm] at hf
  have hdm : dm = (deltaMarker h).toNat := (deltaMarker_toNat h).symm
  have hlm : lm = (lengthMarker h).toNat := (lengthMarker_toNat h).symm
  rw [hf, hdm, hlm, BitVec.ofNat_toNat, BitVec.ofNat_toNat, BitVec.setWidth_eq, BitVec.setWidth_eq]
  refine ⟨headerForm_badD15, headerForm_badL15, ?optNN, ?optN1, ?optN2, ?opt1N, ?opt11, ?opt12, ?opt2N, ?opt21, ?opt22⟩
  case optNN => intro hd hl; simp only [headerForm, markerClass_literal.2 hd, markerClass_literal.2 hl]
  case optN1 => intro hd hl; simp only [headerForm, markerClass_literal.2 hd, markerClass_of_toNat_13 hl]
  case optN2 => intro hd hl; simp only [headerForm, markerClass_literal.2 hd, markerClass_of_toNat_14 hl]
  case opt1N => intro hd hl; simp only [headerForm, markerClass_of_toNat_13 hd, markerClass_literal.2 hl]
  case opt11 => intro hd hl; simp only [headerForm, markerClass_of_toNat_13 hd, markerClass_of_toNat_13 hl]
  case opt12 => intro hd hl; simp only [headerForm, markerClass_of_toNat_13 hd, markerClass_of_toNat_14 hl]
  case opt2N => intro hd hl; simp only [headerForm, markerClass_of_toNat_14 hd, markerClass_literal.2 hl]
  case opt21 => intro hd hl; simp only [headerForm, markerClass_of_toNat_14 hd, markerClass_of_toNat_13 hl]
  case opt22 => intro hd hl; simp only [headerForm, markerClass_of_toNat_14 hd, markerClass_of_toNat_14 hl]

/-! ### Markers -/

theorem decodeMarker_wf {m : Nibble} {p : Nat} (hp : fits P p = true) : (decodeMarker m p).wf P = true := by
  unfold decodeMarker
  split
  · simp [Instr.wf, *]
  all_goals exact hp

/-! ### Payload forms -/

theorem typedNumber_eq_false {num : OptNum} :
    typedNumber P num = false ↔ num ≠ P.numUriPath ∧ num ≠ P.numContentFormat ∧ num ≠ P.numBlock2 := by
  simp [typedNumber, and_assoc]

/-- A registered sum is the widening of a member (42_value_decode.md R151). -/
theorem exists_setWidth_of_registered {numx : Sum} (h : registered P numx = true) :
    ∃ num ∈ P.registry, numx = num.setWidth 18 := by
  refine ⟨_, Machine.setWidth_mem_registry h, BitVec.eq_of_toNat_eq ?_⟩
  rw [BitVec.toNat_setWidth_of_le (by decide), registered_toNat h]

/-- What selects a payload form: the number, the length, and what is known of them (42_value_decode.md R150 to R160).
`decodePayload_selects` ties it to the decoder. -/
inductive PayloadSelects (P : Params) (voff : Nat) : Sum → Ext → Instr → Prop
  | unknown {numx : Sum} {l : Ext} (hr : registered P numx = false) : PayloadSelects P voff numx l (.unknown numx)
  | uriPath {l : Ext} : PayloadSelects P voff (P.numUriPath.setWidth 18) l (.uriPath voff l)
  | contentFormat {l : Ext} : PayloadSelects P voff (P.numContentFormat.setWidth 18) l (.contentFormat voff l)
  | block21 : PayloadSelects P voff (P.numBlock2.setWidth 18) 1#17 (.block21 voff)
  | block22 : PayloadSelects P voff (P.numBlock2.setWidth 18) 2#17 (.block22 voff)
  | block23 : PayloadSelects P voff (P.numBlock2.setWidth 18) 3#17 (.block23 voff)
  | block2BadLen {l : Ext} (h1 : l ≠ 1#17) (h2 : l ≠ 2#17) (h3 : l ≠ 3#17) :
    PayloadSelects P voff (P.numBlock2.setWidth 18) l (.block2BadLen voff l)
  | opaqueOpt {num : OptNum} {l : Ext} (hr : num ∈ P.registry) (ht : typedNumber P num = false)
    (hu : P.untypedPolicy = .opaque_) : PayloadSelects P voff (num.setWidth 18) l (.opaqueOpt num voff l)
  | untypedStrict {num : OptNum} {l : Ext} (hr : num ∈ P.registry) (ht : typedNumber P num = false)
    (hu : P.untypedPolicy = .strict) : PayloadSelects P voff (num.setWidth 18) l (.untypedStrict num voff l)

theorem decodeBlock2_selects (voff : Nat) (l : Ext) :
    PayloadSelects P voff (P.numBlock2.setWidth 18) l (decodeBlock2 voff l) := by
  unfold decodeBlock2
  split_ifs with h1 h2 h3
  · exact h1 ▸ .block21
  · exact h2 ▸ .block22
  · exact h3 ▸ .block23
  · exact .block2BadLen h1 h2 h3

theorem decodePayload_selects (numx : Sum) (voff : Nat) (l : Ext) :
    PayloadSelects P voff numx l (decodePayload P numx voff l) := by
  cases hreg : registered P numx with
  | false => rw [decodePayload, if_pos hreg]; exact .unknown hreg
  | true =>
    obtain ⟨num, hr, rfl⟩ := exists_setWidth_of_registered hreg
    simp only [decodePayload, hreg, Bool.true_eq_false, if_false, Laws.Codec.setWidth_num]
    split_ifs with hu hc hb
    · exact hu ▸ .uriPath
    · exact hc ▸ .contentFormat
    · exact hb ▸ decodeBlock2_selects voff l
    · have ht : typedNumber P num = false := typedNumber_eq_false.2 ⟨hu, hc, hb⟩
      cases hp : P.untypedPolicy with
      | opaque_ => exact .opaqueOpt hr ht hp
      | strict => exact .untypedStrict hr ht hp

theorem decodePayload_wf {numx : Sum} {voff : Nat} {l : Ext} (hn : numx.toNat ≤ 131339) (hl : l.toNat ≤ 65804)
    (hv : fits P voff = true) : (decodePayload P numx voff l).wf P = true := by
  have hplace : payloadPlace P voff l = true := by simp [payloadPlace, hv, hl]
  have h := decodePayload_selects (P := P) numx voff l
  generalize decodePayload P numx voff l = i at h
  cases h with
  | unknown hr => simp [Instr.wf, hn, hr]
  | uriPath | contentFormat => exact hplace
  | block21 | block22 | block23 => exact hv
  | block2BadLen h1 h2 h3 => simp [Instr.wf, hplace, h1, h2, h3]
  | opaqueOpt hr ht hu => simp [Instr.wf, untypedNumber, hplace, hr, ht, hu]
  | untypedStrict hr ht hu => simp [Instr.wf, untypedNumber, hplace, hr, ht, hu]

/-! ### Host transactions -/

theorem decodeHost_wf {x : HostInput} {i : Instr} (h : decodeHost P x = .ok i) : i.wf P = true := by
  cases x with
  | cmd code lenIn prevIn =>
    simp only [decodeHost] at h
    split at h
    · rename_i hfit
      split at h <;> cases h
      · rfl
      · exact hfit
      · rfl
      · rfl
    · cases h
  | rst | regRead => cases h; rfl
  | bufWrite | bufRead =>
    simp only [decodeHost] at h
    split at h <;> cases h
    assumption

/-- Settles O3: in each of the four encoding spaces, past the tests of what a port or a producer can carry. -/
theorem decodedIsWellFormed : Obligations.DecodedIsWellFormed := by
  intro P c i _ h
  cases c with
  | frame bytes => cases h; exact decodeFrame_wf bytes
  | marker m p =>
    simp only [decode] at h
    split at h <;> cases h
    exact decodeMarker_wf ‹_›
  | payload numx voff l =>
    simp only [decode] at h
    split_ifs at h with hn hl hv
    cases h
    exact decodePayload_wf (Nat.le_of_not_lt hn) (Nat.le_of_not_lt hl) hv
  | host x => exact decodeHost_wf h

end Sys2Proof
end

