-- ==== Sys2Proof/Proofs/Selection.lean ====
section
/-! PROOFS. Where an instruction acts (30_encoding.md R79, R82, R83): the machine's step runs what the host's transaction
decodes to, and a frame, extended-field or payload form runs only where it is selected and lies inside the window. -/

namespace Sys2Proof.Machine

open Sys2Proof.Config

variable {s : State}

/-! ### The machine's step -/

/-- Settles O6: the three arms of the step. -/
theorem stepRunsHostTransaction : Obligations.StepRunsHostTransaction := by
  refine ⟨?decoded, ?idle, ?undecodable⟩
  case decoded =>
    intro s x rest i hin hd
    simp only [step, hin, decodeInput, hd]
    rfl
  case idle =>
    intro s hin
    simp only [step, hin]
  case undecodable =>
    intro s x rest e hin hd
    simp only [step, hin, decodeInput, hd]

/-! ### The three selection tests -/

theorem runFrame_refused {i : Instr} {t : State} (h : s.phase ≠ .ready ∨ s.frameAt ≠ i) :
    runFrame i s t = .refused .notSelected := if_neg (not_and_or.2 h)

theorem runExtended_refused {i : Instr} {m : Nibble} {p : Nat} {r : Except Err (Ext × Nat)}
    (h : s.phase ≠ .ready ∨ decodeMarker m p ≠ i) : runExtended i m p r s = .refused .notSelected :=
  if_neg (not_and_or.2 h)

theorem runPayload_refused {i : Instr} {numx : Sum} {voff : Nat} {l : Ext} {r : Except Err Typed}
    (h : s.phase ≠ .ready ∨ decodePayload s.cfg numx voff l ≠ i) : runPayload i numx voff l r s = .refused .notSelected :=
  if_neg (not_and_or.2 h)

theorem runExtended_outside {m : Nibble} {p : Nat} {r : Except Err (Ext × Nat)} (hp : s.phase = .ready)
    (hl : s.len < p) : runExtended (decodeMarker m p) m p r s = .fault .outsideWindow := by
  rw [runExtended, if_pos ⟨hp, rfl⟩, if_neg hl.not_ge]

theorem runPayload_outside {numx : Sum} {voff : Nat} {l : Ext} {r : Except Err Typed} (hp : s.phase = .ready)
    (hl : s.len < voff + l.toNat) :
    runPayload (decodePayload s.cfg numx voff l) numx voff l r s = .fault .outsideWindow := by
  rw [runPayload, if_pos ⟨hp, rfl⟩, if_neg hl.not_ge]

/-! ### Frame forms -/

/-- The thirteen frame forms (30_encoding.md R79), with `dm` and `lm` for the nibbles they leave free. -/
def frameForms (dm lm : Nibble) : List Instr :=
  [.opt11, .opt12, .opt21, .opt22, .pmark, .eoo] ++
    [.optNN dm lm, .optN1 dm, .optN2 dm, .opt1N lm, .opt2N lm, .badD15 lm, .badL15 dm]

theorem exec_frameForm {i : Instr} {dm lm : Nibble} (hi : i ∈ frameForms dm lm) (s : State) :
    ∃ t, exec i s = runFrame i s t := by
  simp only [frameForms, List.cons_append, List.nil_append, List.mem_cons, List.not_mem_nil, or_false] at hi
  rcases hi with rfl | rfl | rfl | rfl | rfl | rfl | rfl | rfl | rfl | rfl | rfl | rfl | rfl <;> exact ⟨_, rfl⟩

/-- Settles O34: a frame form that acts passed the selection test, and then it is the step (`runFrame_step`). -/
theorem frameFormsActOnlyWhereTheyStand : Obligations.FrameFormsActOnlyWhereTheyStand := by
  intro i s t hi h
  have hform : ∃ dm lm, i ∈ frameForms dm lm := by
    rcases hi with hi | ⟨dm, lm, hi⟩
    · exact ⟨0#4, 0#4, List.mem_append_left _ hi⟩
    · exact ⟨dm, lm, List.mem_append_right _ (by simpa using hi)⟩
  obtain ⟨dm, lm, hi⟩ := hform
  obtain ⟨u, hu⟩ := exec_frameForm hi s
  obtain ⟨hp, hat, rfl⟩ := runFrame_step s hu h
  exact ⟨hp, hat, exec_step s hp⟩

/-! ### Extended-field forms -/

/-- The form a marker selects runs under the test of that marker. -/
theorem exec_decodeMarker (s : State) (m : Nibble) (p : Nat) :
    ∃ r, exec (decodeMarker m p) s = runExtended (decodeMarker m p) m p r s := by
  rcases markerClass_cases m with h | rfl | rfl | rfl
  · rw [decodeMarker, h]; exact ⟨_, rfl⟩
  all_goals exact ⟨_, rfl⟩

/-- A marker that selects `XDEC.N` is literal (40_extended_field.md R101). -/
theorem decodeMarker_ne_xdecN {m : Nibble} (h : 12 < m.toNat) (p q : Nat) : decodeMarker m p ≠ .xdecN m q := by
  unfold decodeMarker
  split
  · exact absurd (markerClass_literal.1 ‹_›) h.not_ge
  all_goals simp

/-! ### Payload forms -/

/-- The form a registered number and a length select runs under the test of that number, place and length. -/
theorem exec_of_selects {numx : Sum} {voff : Nat} {l : Ext} {i : Instr} (h : PayloadSelects s.cfg voff numx l i)
    (hr : registered s.cfg numx = true) : ∃ r, exec i s = runPayload i numx voff l r s := by
  cases h with
  | unknown hn => simp [hn] at hr
  | uriPath | contentFormat | block21 | block22 | block23 | block2BadLen | opaqueOpt | untypedStrict => exact ⟨_, rfl⟩

/-- Outside `READY` no payload form runs, `UNKNOWN` included, whose test has no place and no length. -/
theorem exec_decodePayload_not_ready (hp : s.phase ≠ .ready) (numx : Sum) (voff : Nat) (l : Ext) :
    exec (decodePayload s.cfg numx voff l) s = .refused .notSelected := by
  cases hr : registered s.cfg numx with
  | true =>
    obtain ⟨r, he⟩ := exec_of_selects (decodePayload_selects numx voff l) hr
    rw [he, runPayload_refused (.inl hp)]
  | false =>
    rw [decodePayload, if_pos hr]
    exact runPayload_refused (.inl hp)

theorem exec_decodePayload_outside (hp : s.phase = .ready) {numx : Sum} {voff : Nat} {l : Ext}
    (hr : registered s.cfg numx = true) (hl : s.len < voff + l.toNat) :
    exec (decodePayload s.cfg numx voff l) s = .fault .outsideWindow := by
  obtain ⟨r, he⟩ := exec_of_selects (decodePayload_selects numx voff l) hr
  rw [he, runPayload_outside hp hl]

/-- A form that no operands select is refused. -/
theorem runPayload_unselected {numx : Sum} {voff : Nat} {l : Ext} {i : Instr} {r : Except Err Typed}
    (h : ¬ PayloadSelects s.cfg voff numx l i) : runPayload i numx voff l r s = .refused .notSelected :=
  runPayload_refused (.inr fun he => h (he ▸ decodePayload_selects numx voff l))

variable {P : Params} {voff voff' : Nat} {l l' : Ext}

theorem selects_unknown {numx numx' : Sum} (h : PayloadSelects P voff numx l (.unknown numx')) :
    registered P numx = false := by cases h; assumption

theorem selects_block2BadLen {numx : Sum} (h : PayloadSelects P voff numx l (.block2BadLen voff' l')) :
    l ≠ 1#17 ∧ l ≠ 2#17 ∧ l ≠ 3#17 := by cases h; exact ⟨‹_›, ‹_›, ‹_›⟩

theorem selects_opaqueOpt {numx : Sum} {num : OptNum} (h : PayloadSelects P voff numx l (.opaqueOpt num voff' l')) :
    num ∈ P.registry ∧ typedNumber P num = false ∧ P.untypedPolicy = .opaque_ := by cases h; exact ⟨‹_›, ‹_›, ‹_›⟩

theorem selects_untypedStrict {numx : Sum} {num : OptNum}
    (h : PayloadSelects P voff numx l (.untypedStrict num voff' l')) :
    num ∈ P.registry ∧ typedNumber P num = false ∧ P.untypedPolicy = .strict := by cases h; exact ⟨‹_›, ‹_›, ‹_›⟩

/-- Settles O35: in each clause the test that selects the form, or that of the window, fails. -/
theorem unperformedFormsStop : Obligations.UnperformedFormsStop := by
  intro s
  refine ⟨fun i dm lm hi h => ?_, fun m p => ⟨fun hp => ?_, fun hp hl => ?_, fun hm => ?_⟩,
    fun numx voff l => ⟨fun hp => ?_, fun hp hr hl => ?_, fun hr => ?_, fun h1 h3 => ?_⟩,
    fun num voff l => ⟨fun h => ?_, fun h => ?_⟩⟩
  · obtain ⟨t, he⟩ := exec_frameForm (dm := dm) (lm := lm) hi s
    rw [he, runFrame_refused h]
  · obtain ⟨r, he⟩ := exec_decodeMarker s m p
    rw [he, runExtended_refused (.inl hp)]
  · obtain ⟨r, he⟩ := exec_decodeMarker s m p
    rw [he, runExtended_outside hp hl]
  · exact runExtended_refused (.inr (decodeMarker_ne_xdecN hm p p))
  · exact exec_decodePayload_not_ready hp numx voff l
  · exact exec_decodePayload_outside hp (registered_iff.2 hr) hl
  · refine runPayload_unselected fun hsel => ?_
    exact absurd (registered_iff.2 hr) (Bool.eq_false_iff.1 (selects_unknown hsel))
  · refine runPayload_unselected fun hsel => ?_
    obtain ⟨hl1, hl2, hl3⟩ := selects_block2BadLen hsel
    bv_omega
  · refine runPayload_unselected fun hsel => ?_
    obtain ⟨hr, ht, hu⟩ := selects_opaqueOpt hsel
    obtain ⟨hnu, hnc, hnb⟩ := typedNumber_eq_false.1 ht
    simp [hr, hnu, hnc, hnb, hu] at h
  · refine runPayload_unselected fun hsel => ?_
    obtain ⟨hr, ht, hu⟩ := selects_untypedStrict hsel
    obtain ⟨hnu, hnc, hnb⟩ := typedNumber_eq_false.1 ht
    simp [hr, hnu, hnc, hnb, hu] at h

end Sys2Proof.Machine
end

