-- ==== Sys2Proof/Proofs/ExtendedField.lean ====
section
/-! PROOFS. The extended field (40_extended_field.md R100 to R106, 44_reference_encoder.md R211, R216): the reference encoder
said once for each class of marker, the decoder as its inverse, and the four forms as one run of `XDEC`. -/

namespace Sys2Proof.Machine

open Sys2Proof.Reference

variable {s : State}

/-! ### The reference encoder, class by class -/

theorem encodeExtended_literal {v : Nat} (h : v ≤ 12) : encodeExtended v = .ok (v, []) := if_pos h

theorem encodeExtended_oneByte (b : Byte) : encodeExtended (b.toNat + 13) = .ok (13, [b]) := by
  have := b.isLt
  rw [encodeExtended, if_neg (by omega), if_pos (by omega), Nat.add_sub_cancel, BitVec.ofNat_toNat, BitVec.setWidth_eq]

theorem encodeExtended_twoBytes (hi lo : Byte) :
    encodeExtended (hi.toNat * 256 + lo.toNat + 269) = .ok (14, [hi, lo]) := by
  have := hi.isLt
  have := lo.isLt
  have hdiv : (hi.toNat * 256 + lo.toNat) / 256 = hi.toNat := by omega
  have hmod : (hi.toNat * 256 + lo.toNat) % 256 = lo.toNat := by omega
  rw [encodeExtended, if_neg (by omega), if_neg (by omega), if_pos (by omega), Nat.add_sub_cancel, hdiv, hmod]
  simp only [BitVec.ofNat_toNat, BitVec.setWidth_eq]

theorem encodeExtended_overflow {v : Nat} (h : 65804 < v) : encodeExtended v = .error .encodingOverflow := by
  rw [encodeExtended, if_neg (by omega), if_neg (by omega), if_neg (by omega)]

/-- The three ranges of R106 cover 0 to 65804: each value is one of those whose encodings stand above. -/
theorem extendedValue_cases {v : Nat} (h : v ≤ 65804) :
    v ≤ 12 ∨ (∃ b : Byte, v = b.toNat + 13) ∨ ∃ hi lo : Byte, v = hi.toNat * 256 + lo.toNat + 269 := by
  by_cases h12 : v ≤ 12
  · exact .inl h12
  by_cases h268 : v ≤ 268
  · exact .inr (.inl ⟨BitVec.ofNat 8 (v - 13), by rw [BitVec.toNat_ofNat]; omega⟩)
  · refine .inr (.inr ⟨BitVec.ofNat 8 ((v - 269) / 256), BitVec.ofNat 8 ((v - 269) % 256), ?_⟩)
    rw [BitVec.toNat_ofNat, BitVec.toNat_ofNat]
    omega

/-! ### Decoder and encoder -/

/-- Where the bytes of the encoding stand at `p` inside the window, `XDEC` of its marker gives the value back. -/
theorem xdec_of_encoded {v : Nat} (hv : v ≤ 65804) :
    ∃ (m : Nat) (ext : List Byte), encodeExtended v = .ok (m, ext) ∧ m ≤ 14 ∧
    ∀ (s : State) (p : Nat), ext.length ≤ s.len - p → s.slice p ext.length = ext →
      xdec s (BitVec.ofNat 4 m) p = .ok (BitVec.ofNat 17 v, p + ext.length) := by
  rcases extendedValue_cases hv with h12 | ⟨b, rfl⟩ | ⟨hi, lo, rfl⟩
  · refine ⟨v, [], encodeExtended_literal h12, by omega, fun s p _ _ => ?_⟩
    have hm : (BitVec.ofNat 4 v).toNat = v := by rw [BitVec.toNat_ofNat]; omega
    rw [xdec_literal s (markerClass_literal.2 (by omega)), xdecN_eq, hm]
    rfl
  · refine ⟨13, [b], encodeExtended_oneByte b, by omega, fun s p hlen hbytes => ?_⟩
    obtain rfl : s.byteAt p = b := by simpa [State.slice_one] using hbytes
    exact (xdec_13 s p).trans ((xdec1_eq s p).trans (if_neg (Nat.not_lt.2 hlen)))
  · refine ⟨14, [hi, lo], encodeExtended_twoBytes hi lo, by omega, fun s p hlen hbytes => ?_⟩
    obtain ⟨rfl, rfl⟩ : s.byteAt p = hi ∧ s.byteAt (p + 1) = lo := by simpa [State.slice_two] using hbytes
    exact (xdec_14 s p).trans ((xdec2_eq s p).trans (if_neg (Nat.not_lt.2 hlen)))

/-- What `XDEC` decodes is encoded as the marker and the bytes it consumed. -/
theorem encodeExtended_of_xdec {m : Nibble} {p q : Nat} {v : Ext} (h : xdec s m p = .ok (v, q)) :
    encodeExtended v.toNat = .ok (m.toNat, s.slice p (q - p)) := by
  rcases xdec_ok s h with ⟨hm, hv, rfl⟩ | ⟨rfl, hv, rfl, -⟩ | ⟨rfl, hv, rfl, -⟩
  · rw [hv, encodeExtended_literal hm, Nat.sub_self, State.slice_zero]
  · rw [hv, encodeExtended_oneByte, Nat.add_sub_cancel_left, State.slice_one]
    rfl
  · rw [hv, encodeExtended_twoBytes, Nat.add_sub_cancel_left, State.slice_two]
    rfl

/-- Settles O18: the two directions are `xdec_of_encoded` and `encodeExtended_of_xdec`. -/
theorem extendedFieldInverse : Obligations.ExtendedFieldInverse :=
  ⟨fun _ => xdec_of_encoded, fun _ _ _ _ _ => encodeExtended_of_xdec, fun _ => encodeExtended_overflow⟩

/-- Settles O17: by the class of the marker, with the bounds every decoded field has. -/
theorem extendedValueInRange : Obligations.ExtendedValueInRange := by
  intro s m p q v hp h
  obtain ⟨hmax, -, hwindow⟩ := xdec_bounds s h
  have := (s.byteAt p).isLt
  refine ⟨hmax, ?_⟩
  rcases xdec_ok s h with ⟨hm, hv, rfl⟩ | ⟨rfl, hv, rfl, -⟩ | ⟨rfl, hv, rfl, -⟩
  · rw [markerClass_literal.2 hm]
    exact ⟨rfl, hp, by omega, by omega, by omega, by omega⟩
  · exact ⟨rfl, hwindow hp, by simp, by omega, by simp, by simp⟩
  · exact ⟨rfl, hwindow hp, by simp, by simp, by omega, by simp⟩

/-! ### The four forms -/

theorem decodeMarker_literal {m : Nibble} (h : m.toNat ≤ 12) (p : Nat) : decodeMarker m p = .xdecN m p := by
  rw [decodeMarker, markerClass_literal.2 h]

/-- Inside a step and the window, the form a marker selects is one run of `XDEC`. -/
theorem exec_decodeMarker_inside {p : Nat} (hp : s.phase = .ready) (hl : p ≤ s.len) (m : Nibble) :
    exec (decodeMarker m p) s = .next (subResult (fun x => .extended x.1 x.2) (xdec s m p) s) := by
  rcases markerClass_cases m with h | rfl | rfl | rfl
  · have hi := decodeMarker_literal (markerClass_literal.1 h) p
    rw [hi, xdec_literal s h]
    exact runExtended_ok hp hi hl
  · exact runExtended_ok hp rfl hl
  · exact runExtended_ok hp rfl hl
  · exact runExtended_ok hp rfl hl

theorem exec_decodeMarker_ok {m : Nibble} {p q : Nat} {v : Ext} (hp : s.phase = .ready) (hl : p ≤ s.len)
    (h : xdec s m p = .ok (v, q)) : exec (decodeMarker m p) s = .next (s.give (.extended v q)) := by
  rw [exec_decodeMarker_inside hp hl, h]
  rfl

theorem exec_decodeMarker_error {m : Nibble} {p : Nat} {e : Err} (hp : s.phase = .ready) (hl : p ≤ s.len)
    (h : xdec s m p = .error e) : exec (decodeMarker m p) s = .next (faultEntry e s) := by
  rw [exec_decodeMarker_inside hp hl, h]
  rfl

/-- Settles O16: each form is selected by its marker, and `XDEC` of that marker is known as a number. -/
theorem extendedFieldForms : Obligations.ExtendedFieldForms := by
  intro s p hp hl
  refine ⟨?literal, ?oneShort, ?one, ?twoShort, ?two, ?reserved⟩
  case literal =>
    intro m hm
    rw [← decodeMarker_literal hm]
    exact exec_decodeMarker_ok hp hl ((xdec_literal s (markerClass_literal.2 hm) p).trans (xdecN_eq m p))
  case oneShort =>
    intro h
    exact exec_decodeMarker_error (m := 13#4) hp hl (by rw [xdec_13, xdec1_eq, if_pos h])
  case one =>
    intro h
    exact exec_decodeMarker_ok (m := 13#4) hp hl (by rw [xdec_13, xdec1_eq, if_neg (Nat.not_lt.2 h)])
  case twoShort =>
    intro h
    exact exec_decodeMarker_error (m := 14#4) hp hl (by rw [xdec_14, xdec2_eq, if_pos h])
  case two =>
    intro h
    exact exec_decodeMarker_ok (m := 14#4) hp hl (by rw [xdec_14, xdec2_eq, if_neg (Nat.not_lt.2 h)])
  case reserved => exact exec_decodeMarker_error (m := 15#4) hp hl (xdec_15 s p)

end Sys2Proof.Machine
end

