-- ==== Sys2Proof/Proofs/FrameParse.lean ====
section
/-! PROOFS. One step of the frame parser (41_frame_parse.md R120 to R138): each frame form where it stands, what a step
leaves alone, and the step as the source's `parseOne`. -/

namespace Sys2Proof.Machine

open Sys2Proof.Config Sys2Proof.Reference

variable {s t : State}

/-! ### `STEP` and the form at the cursor -/

/-- The form that stands at the cursor is the step. -/
theorem exec_of_frameAt {i : Instr} (hp : s.phase = .ready) (hi : s.frameAt = i) : exec i s = .next (frameStep s) :=
  hi ▸ exec_frameAt s hp

/-- Settles O7: the bytes at the cursor decode to the form that stands there, and that form is the step. -/
theorem stepCommandRunsFrameAtCursor : Obligations.StepCommandRunsFrameAtCursor := by
  intro s i hp hd
  have hi : s.frameAt = i := Except.ok.inj hd
  rw [exec_step s hp, exec_of_frameAt hp hi]

theorem exec_step_next (h : exec .step s = .next t) :
    s.phase ≠ .ready ∧ t = s ∨ s.phase = .ready ∧ t = frameStep s := by
  by_cases hp : s.phase = .ready
  · rw [exec_step s hp] at h
    cases h
    exact .inr ⟨hp, rfl⟩
  · rw [exec_step_not s hp] at h
    cases h
    exact .inl ⟨hp, rfl⟩

/-! ### The step, test by test (41_frame_parse.md R120) -/

theorem frameStep_empty (hr : s.rem = 0) : frameStep s = endOfOptions s := if_pos hr

theorem frameStep_marker (hr : s.rem ≠ 0) (hm : s.byteAt s.cur = s.cfg.payloadMarker) : frameStep s = payloadMarker s :=
  (if_neg hr).trans (if_pos hm)

theorem frameStep_header (hr : s.rem ≠ 0) (hm : s.byteAt s.cur ≠ s.cfg.payloadMarker) :
    frameStep s = optionFrame (xdec s (deltaMarker (s.byteAt s.cur))) (xdec s (lengthMarker (s.byteAt s.cur))) s :=
  (if_neg hr).trans (if_neg hm)

theorem frameAt_marker (hr : s.rem ≠ 0) (hm : s.byteAt s.cur = s.cfg.payloadMarker) : s.frameAt = .pmark := by
  rw [frameAt_nonzero s hr, hm, decodeHeader_marker]

theorem frameAt_header (hr : s.rem ≠ 0) (hm : s.byteAt s.cur ≠ s.cfg.payloadMarker) :
    s.frameAt = headerForm (deltaMarker (s.byteAt s.cur)) (lengthMarker (s.byteAt s.cur)) := by
  rw [frameAt_nonzero s hr, decodeHeader, if_neg hm]

/-- The form of an option header decodes both extended fields by their markers. -/
theorem exec_headerForm {dm lm : Nibble} (hp : s.phase = .ready) (hr : s.rem ≠ 0) (hb : s.byteAt s.cur = headerByte dm lm)
    (hm : s.byteAt s.cur ≠ s.cfg.payloadMarker) :
    exec (headerForm dm lm) s = .next (optionFrame (xdec s dm) (xdec s lm) s) := by
  have hi := frameAt_header hr hm
  have hs := frameStep_header hr hm
  rw [hb, deltaMarker_headerByte, lengthMarker_headerByte] at hi hs
  rw [exec_of_frameAt hp hi, hs]

/-! ### The sentinels -/

/-- Settles O8: on an empty remainder `EOO` stands at the cursor. -/
theorem endOfOptionsStep : Obligations.EndOfOptionsStep := by
  intro s hp hr
  rw [exec_of_frameAt hp (frameAt_zero s hr), frameStep_empty hr]
  rfl

/-- What is left after the payload marker is the message payload (41_frame_parse.md R122). -/
theorem remainder_payloadMarker (s : State) : (payloadMarker s).remainder = s.slice (s.cur + 1) (s.len - (s.cur + 1)) := rfl

theorem remainder_tail (hr : s.rem ≠ 0) : s.remainder.tail = s.slice (s.cur + 1) (s.len - (s.cur + 1)) := by
  rw [State.remainder_cons s hr]
  rfl

/-- Settles O9: on the marker byte `PMARK` stands at the cursor. -/
theorem payloadMarkerStep : Obligations.PayloadMarkerStep := by
  intro s hp hr hm
  refine ⟨payloadMarker s, ?_, (remainder_payloadMarker s).trans (remainder_tail hr).symm, rfl⟩
  rw [exec_of_frameAt hp (frameAt_marker hr hm), frameStep_marker hr hm]

/-! ### The reserved markers -/

theorem optionFrame_reservedDelta (length : Nat → Except Err (Ext × Nat)) :
    optionFrame (xdec s 15#4) length s = faultEntry .malformedHeader s := by
  simp only [optionFrame, xdec_15, xdecX]

/-- Settles O12: the reserved delta marker faults before anything else is decoded. -/
theorem badDeltaMarkerFaults : Obligations.BadDeltaMarkerFaults := by
  intro s lm hp hr hb hm
  have h := exec_headerForm hp hr hb hm
  rw [headerForm_badD15 rfl, optionFrame_reservedDelta] at h
  exact h

/-- A reserved length marker is found only after the delta's extension bytes (41_frame_parse.md R135). -/
theorem optionFrame_reservedLength {dm : Nibble} (hd : dm ≠ 15#4) (hr : s.rem ≠ 0) :
    optionFrame (xdec s dm) (xdec s 15#4) s =
      faultEntry (if s.rem < 1 + (markerClass dm).extBytes then .truncatedInput else .malformedHeader) s := by
  unfold State.rem at *
  by_cases hshort : s.len - (s.cur + 1) < (markerClass dm).extBytes
  · rw [optionFrame, xdec_eq s hd, if_pos hshort, if_pos (by omega)]
  · simp only [optionFrame, xdec_eq s hd, if_neg hshort, xdec_15, xdecX]
    rw [if_neg (by omega)]

/-- The remainder is too short for the header byte and the delta's extension bytes, by the marker's value. -/
theorem rem_lt_extBytes_iff {dm : Nibble} (hr : s.rem ≠ 0) :
    s.rem < 1 + (markerClass dm).extBytes ↔ (dm.toNat = 13 ∧ s.rem < 2) ∨ (dm.toNat = 14 ∧ s.rem < 3) := by
  rcases markerClass_cases dm with h | rfl | rfl | rfl
  · have := markerClass_literal.1 h
    simp only [h, MarkerClass.extBytes]
    omega
  · simp [MarkerClass.extBytes]
  · simp [MarkerClass.extBytes]
  · simp [MarkerClass.extBytes, hr]

/-- Settles O13: the delta's extension bytes are tested first, and only they can be missing. -/
theorem badLengthMarkerFaults : Obligations.BadLengthMarkerFaults := by
  intro s dm e hp hr hd hb hm he
  have h15 : dm ≠ 15#4 := by
    rintro rfl
    exact absurd hd (by decide)
  have h := exec_headerForm hp hr hb hm
  rw [headerForm_badL15 hd rfl, optionFrame_reservedLength h15 hr] at h
  simp only [rem_lt_extBytes_iff hr, ← he] at h
  exact h

/-! ### The nine option forms: the rest of a step by the construction on the payload's bytes -/

theorem finishOption_ok {d l p : Nat} {v : Typed} (hd : d ≤ 65804) (hl : l ≤ 65804) (hp : l ≤ s.len - p)
    (hv : construct s.cfg (s.prev.toNat + d) (s.slice p l) = .ok v) :
    finishOption (BitVec.ofNat 17 d) (BitVec.ofNat 17 l) p s = commit (BitVec.ofNat 17 d) (BitVec.ofNat 17 l) p v s := by
  simp only [finishOption_eq s d l p hd hl, if_neg hp.not_gt, hv]

theorem finishOption_error {d l p : Nat} {e : Err} (hd : d ≤ 65804) (hl : l ≤ 65804) (hp : l ≤ s.len - p)
    (he : construct s.cfg (s.prev.toNat + d) (s.slice p l) = .error e) :
    finishOption (BitVec.ofNat 17 d) (BitVec.ofNat 17 l) p s = faultEntry e s := by
  simp only [finishOption_eq s d l p hd hl, if_neg hp.not_gt, he]

theorem finishOption_short {d l p : Nat} (hd : d ≤ 65804) (hl : l ≤ 65804) (hp : s.len - p < l) :
    finishOption (BitVec.ofNat 17 d) (BitVec.ofNat 17 l) p s = faultEntry .truncatedInput s := by
  rw [finishOption_eq s d l p hd hl, if_pos hp]

/-- Where a form of the table of 30_encoding.md R76 stands, the step is the rest of a step at the table's positions, unless
the header's extension bytes are missing. -/
theorem frameStep_layout {f : Layout} (hf : s.layoutAt s.frameAt = some f) :
    f.delta ≤ 65804 ∧ f.length ≤ 65804 ∧
      frameStep s =
        if s.rem < f.payloadAt then faultEntry .truncatedInput s
        else finishOption (BitVec.ofNat 17 f.delta) (BitVec.ofNat 17 f.length) (s.cur + f.payloadAt) s := by
  have hr : s.rem ≠ 0 := by
    intro hr
    rw [frameAt_zero s hr] at hf
    cases hf
  have hm : s.byteAt s.cur ≠ s.cfg.payloadMarker := by
    intro hm
    rw [frameAt_marker hr hm] at hf
    cases hf
  rw [frameAt_header hr hm] at hf
  obtain ⟨h1, h2, rfl⟩ := layoutAt_headerForm s _ _ f hf
  refine ⟨s.fieldValue_le _ _, s.fieldValue_le _ _, ?_⟩
  rw [frameStep_header hr hm, optionFrame_eq s _ _ h1 h2 hr]
  simp only [Nat.add_assoc]

/-- Settles O10: a complete frame passes both bounds tests, and the construction's result is committed. -/
theorem optionFormsCommit : Obligations.OptionFormsCommit := by
  intro s i f v hp hi hf hfits hv
  subst hi
  obtain ⟨hd, hl, hstep⟩ := frameStep_layout hf
  have hinside : f.length ≤ s.len - (s.cur + f.payloadAt) := by
    unfold State.rem at hfits
    omega
  have hnum : (s.numx (BitVec.ofNat 17 f.delta)).setWidth 16 = BitVec.ofNat 16 (s.prev.toNat + f.delta) := by
    rw [setWidth_eq_ofNat, numx_ofNat s f.delta hd]
  have hlen : (BitVec.ofNat 17 f.length).toNat = f.length := by
    rw [BitVec.toNat_ofNat]
    omega
  rw [exec_of_frameAt hp rfl, hstep, if_neg (by omega), finishOption_ok hd hl hinside hv]
  simp only [commit, hnum, hlen]
  rfl

/-- Settles O11: a short remainder fails one of the two bounds tests, a complete frame fails in the construction. -/
theorem optionFormsFault : Obligations.OptionFormsFault := by
  intro s i f e hp hi hf h
  subst hi
  obtain ⟨hd, hl, hstep⟩ := frameStep_layout hf
  suffices hfault : frameStep s = faultEntry e s by
    rw [exec_of_frameAt hp rfl, hfault]
    rfl
  rw [hstep]
  unfold State.rem at *
  rcases h with ⟨hshort, rfl⟩ | ⟨hfits, he⟩
  · by_cases hheader : s.len - s.cur < f.payloadAt
    · rw [if_pos hheader]
    · rw [if_neg hheader, finishOption_short hd hl (by omega)]
  · rw [if_neg (by omega), finishOption_error hd hl (by omega) he]

/-! ### What a step leaves alone -/

theorem frameStep_cur (ho : (frameStep s).kind ≠ .option) (hm : (frameStep s).kind ≠ .payloadMarker) :
    (frameStep s).cur = s.cur := by
  rcases frameStep_cases s with ⟨-, h⟩ | ⟨-, -, h⟩ | ⟨e, -, -, -, h⟩ | ⟨d, l, p, v, -, -, -, h⟩ <;> rw [h] at ho hm ⊢
  · rfl
  · exact absurd rfl hm
  · rfl
  · exact absurd rfl ho

theorem frameStep_phase_option (hp : s.phase = .ready) (ho : (frameStep s).kind = .option) :
    (frameStep s).phase = s.phase := by
  rcases frameStep_phase s hp with ⟨-, h, -⟩ | ⟨h, -⟩
  · rw [h, hp]
  · simp [ho] at h

/-- Settles O33: outside `READY` nothing changes, and a step writes what its four outcomes write. -/
theorem stepFrame : Obligations.StepFrame := by
  intro s t h
  rcases exec_step_next h with ⟨-, rfl⟩ | ⟨hp, rfl⟩
  · exact ⟨rfl, fun _ => rfl, rfl, rfl, rfl, rfl, fun _ => rfl, fun _ _ => rfl, fun _ => rfl⟩
  · refine ⟨frameStep_len s, byteAt_frameStep s, frameStep_cfg s, frameStep_inputs s, frameStep_answer s, frameStep_epoch s,
      fun ho => ?_, frameStep_cur, frameStep_phase_option hp⟩
    by_contra hprev
    exact ho (frameStep_prev_of_ne hprev).1

/-- Settles O42: an accepted frame lies inside the window, and the other outcomes write neither register but for the
marker's byte. -/
theorem stepIsAllOrNothing : Obligations.StepIsAllOrNothing := by
  intro s t hp h
  rw [exec_step s hp] at h
  cases h
  rcases frameStep_cases s with ⟨-, h⟩ | ⟨hr, -, h⟩ | ⟨e, -, -, -, h⟩ | ⟨d, l, p, v, -, -, ha, h⟩ <;> rw [h]
  · exact .inr (.inl ⟨.inl rfl, rfl, rfl⟩)
  · have hinside : s.cur + 1 ≤ s.len := by
      unfold State.rem at hr
      omega
    exact .inr (.inr ⟨rfl, rfl, hinside, rfl⟩)
  · exact .inr (.inl ⟨.inr rfl, rfl, rfl⟩)
  · exact .inl ⟨rfl, ha.after_header, rfl, ha.inside, rfl⟩

/-! ### The step as the source's `parseOne` -/

/-- The state a step reaches from `s`, against what the source returns on the same remainder (41_frame_parse.md R138). -/
inductive StepOutcome (s : State) : ParseResult → State → Prop
  | endOfOptions (empty : s.rem = 0) : StepOutcome s .endOfOptions (endOfOptions s)
  | payloadMarker {rest : List Byte} (rest_eq : rest = s.slice (s.cur + 1) (s.len - (s.cur + 1))) :
      StepOutcome s (.payloadMarker rest) (payloadMarker s)
  | failure (e : Err) : StepOutcome s (.failure e) (faultEntry e s)
  | option {d l : Ext} {p : Nat} {v : Typed} {number delta : Nat} {payload rest : List Byte} (accepted : Accepted s d l p v)
      (number_eq : number = s.prev.toNat + d.toNat) (delta_eq : delta = d.toNat) (payload_eq : payload = s.slice p l.toNat)
      (rest_eq : rest = s.slice (p + l.toNat) (s.len - (p + l.toNat))) :
      StepOutcome s (.option number delta payload v rest) (commit d l p v s)

/-- Source steps 6 to 10 on the bytes after both extended fields. -/
theorem finishOption_outcome {d l : Ext} {p : Nat} (hd : d.toNat ≤ 65804) (hl : l.toNat ≤ 65804) (hc : s.cur < p)
    (hp : p ≤ s.len) :
    StepOutcome s (parsePayload s.cfg s.prev.toNat d.toNat l.toNat (s.slice p (s.len - p))) (finishOption d l p s) := by
  have hcons := vdec_eq_construct s (s.numx d) p l
  rw [numx_toNat s hd] at hcons
  unfold parsePayload
  rw [State.length_slice]
  rcases finishOption_cases s d l p with ⟨hlen, h⟩ | ⟨e, hlen, he, h⟩ | ⟨v, hlen, hv, h⟩ <;> rw [h]
  · rw [if_pos hlen]
    exact .failure _
  · rw [if_neg hlen, State.take_slice s _ _ _ (by omega), ← hcons, he]
    exact .failure e
  · rw [if_neg hlen, State.take_slice s _ _ _ (by omega), State.drop_slice s _ _ _ (by omega), ← hcons, hv]
    exact .option ⟨hd, hl, hc, by omega, hv⟩ rfl rfl rfl (by rw [Nat.sub_sub])

/-- The step does what the source's `parseOne` returns on the remainder and the previous number. -/
theorem frameStep_outcome (s : State) : StepOutcome s (parseOne s.cfg s.remainder s.prev.toNat) (frameStep s) := by
  by_cases hr : s.rem = 0
  · rw [frameStep_empty hr, State.remainder, hr]
    exact .endOfOptions hr
  have hc : s.cur + 1 ≤ s.len := by
    unfold State.rem at hr
    omega
  have hrest : s.rem - 1 = s.len - (s.cur + 1) := Nat.sub_sub _ _ _
  rw [State.remainder_cons s hr, hrest, parseOne]
  by_cases hm : s.byteAt s.cur = s.cfg.payloadMarker
  · rw [frameStep_marker hr hm, if_pos hm]
    exact .payloadMarker rfl
  rw [frameStep_header hr hm, if_neg hm, ← deltaMarker_toNat, ← lengthMarker_toNat, decodeExtended_slice s _ _ hc,
    optionFrame]
  cases h1 : xdec s (deltaMarker (s.byteAt s.cur)) (s.cur + 1) with
  | error e => exact .failure e
  | ok x =>
    obtain ⟨d, p1⟩ := x
    obtain ⟨hd, hp1, hw1⟩ := xdec_bounds s h1
    simp only [decodeExtended_slice s _ _ (hw1 hc)]
    cases h2 : xdec s (lengthMarker (s.byteAt s.cur)) p1 with
    | error e => exact .failure e
    | ok y =>
      obtain ⟨l, p2⟩ := y
      obtain ⟨hl, hp2, hw2⟩ := xdec_bounds s h2
      exact finishOption_outcome hd hl (by omega) (hw2 (hw1 hc))

/-- The number of an accepted frame is the true sum: a registered sum fits the register (42_value_decode.md R151). -/
theorem Accepted.num_toNat {d l : Ext} {p : Nat} {v : Typed} (ha : Accepted s d l p v) :
    ((s.numx d).setWidth 16).toNat = s.prev.toNat + d.toNat := by
  rw [registered_toNat (vdec_ok s ha.constructed).1, numx_toNat s ha.delta_le]

/-- Settles O15: each outcome writes the source's result to the registers. -/
theorem stepRefinesParseOne : Obligations.StepRefinesParseOne := by
  intro s hp
  refine ⟨frameStep s, exec_step s hp, ?_⟩
  have h := frameStep_outcome s
  generalize parseOne s.cfg s.remainder s.prev.toNat = r at h ⊢
  generalize frameStep s = t at h ⊢
  cases h with
  | endOfOptions hr => exact ⟨rfl, rfl, rfl, congrArg (s.slice s.cur) hr, rfl⟩
  | payloadMarker hrest => exact ⟨rfl, rfl, rfl, (remainder_payloadMarker s).trans hrest.symm, rfl⟩
  | failure e => exact ⟨rfl, rfl, rfl, rfl, rfl⟩
  | option ha hn hd hpayload hrest =>
    have hnum := ha.num_toNat.trans hn.symm
    exact ⟨rfl, hp, rfl, hnum, hnum, hd.symm, hpayload.symm, hrest.symm, rfl, rfl, rfl, rfl, rfl⟩

/-! ### What a step depends on -/

/-- A payload of an accepted frame fixes its length, and what is left fixes where it begins. -/
theorem Accepted.place_eq {d l d' l' : Ext} {p p' : Nat} {v v' : Typed} (hs : Accepted s d l p v)
    (ht : Accepted t d' l' p' v') (hlen : s.len = t.len) (hpayload : s.slice p l.toNat = t.slice p' l'.toNat)
    (hrest : s.slice (p + l.toNat) (s.len - (p + l.toNat)) = t.slice (p' + l'.toNat) (t.len - (p' + l'.toNat))) :
    l = l' ∧ p = p' := by
  have hl := congrArg List.length hpayload
  have hr := congrArg List.length hrest
  simp only [State.length_slice] at hl hr
  have := hs.inside
  have := ht.inside
  exact ⟨BitVec.eq_of_toNat_eq hl, by omega⟩

/-- The same result of the source leads to the same registers and the same record. -/
theorem StepOutcome.same {r : ParseResult} {s' t' : State} (h : s.sameFrameInputs t) (hs : StepOutcome s r s')
    (ht : StepOutcome t r t') : s'.sameRegisters t' ∧ ∃ o, s'.out = s.out ++ [o] ∧ t'.out = t.out ++ [o] := by
  obtain ⟨-, hcur, hlen, hprev, hphase, -⟩ := h
  cases hs with
  | endOfOptions =>
    cases ht
    simp [State.sameRegisters, hcur, hlen, hprev]
  | payloadMarker =>
    cases ht
    simp [State.sameRegisters, hcur, hlen, hprev]
  | failure e =>
    cases ht
    simp [State.sameRegisters, hcur, hlen, hprev]
  | option ha _ hd hp hr =>
    cases ht with
    | option ha' _ hd' hp' hr' =>
      obtain rfl := BitVec.eq_of_toNat_eq (hd.symm.trans hd')
      obtain ⟨rfl, rfl⟩ := ha.place_eq ha' hlen (hp.symm.trans hp') (hr.symm.trans hr')
      simp [State.sameRegisters, hlen, hphase, State.numx, hprev]

/-- Settles O45: equal inputs have one `parseOne`, and its result fixes the registers and the record. -/
theorem stepDependsOnFrameInputsOnly : Obligations.StepDependsOnFrameInputsOnly := by
  intro s t hp h
  obtain ⟨hcfg, -, -, hprev, hphase, hrem⟩ := id h
  have hs := frameStep_outcome s
  rw [hcfg, hrem, hprev] at hs
  obtain ⟨hregs, r, hout⟩ := hs.same h (frameStep_outcome t)
  exact ⟨_, _, r, exec_step s hp, exec_step t (hphase ▸ hp), hregs, hout⟩

end Sys2Proof.Machine
end


section
/-! PROOFS. The payload forms (42_value_decode.md R150 to R161): under well-formed parameters a form is decoded from what
selects it, so it runs inside a step and the window; its result is then returned or faults, and is the source's construction
on the payload's bytes. -/

namespace Sys2Proof

open Config

variable {P : Params}

/-! ### What selects a form decodes as it -/

theorem decodePayload_block2 (hP : P.wf) (voff : Nat) (l : Ext) :
    decodePayload P (P.numBlock2.setWidth 18) voff l = decodeBlock2 voff l := by
  obtain ⟨-, -, hb, -, hub, hcb, -⟩ := hP
  simp [decodePayload, hb, hub.symm, hcb.symm]

/-- The converse of `decodePayload_selects`: the typed numbers are registered and distinct, so no earlier test takes the
form's place. -/
theorem decodePayload_of_selects (hP : P.wf) {numx : Sum} {voff : Nat} {l : Ext} {i : Instr}
    (h : PayloadSelects P voff numx l i) : decodePayload P numx voff l = i := by
  cases h with
  | unknown hr => exact if_pos hr
  | uriPath =>
    obtain ⟨hu, -⟩ := hP
    simp [decodePayload, hu]
  | contentFormat =>
    obtain ⟨-, hc, -, huc, -⟩ := hP
    simp [decodePayload, hc, huc.symm]
  | block21 | block22 | block23 => exact decodePayload_block2 hP ..
  | block2BadLen h1 h2 h3 => rw [decodePayload_block2 hP, decodeBlock2, if_neg h1, if_neg h2, if_neg h3]
  | opaqueOpt hr ht hpolicy | untypedStrict hr ht hpolicy =>
    obtain ⟨hu, hc, hb⟩ := typedNumber_eq_false.1 ht
    simp [decodePayload, hr, hu, hc, hb, hpolicy]

end Sys2Proof

namespace Sys2Proof.Machine

open Sys2Proof.Config Sys2Proof.Reference

variable {s : State}

/-! ### A selected form returns its value or faults -/

section
variable {numx : Sum} {voff : Nat} {l : Ext} {i : Instr} {r : Except Err Typed}
  (hp : s.phase = .ready) (hP : s.cfg.wf) (hi : PayloadSelects s.cfg voff numx l i) (hl : voff + l.toNat ≤ s.len)
include hp hP hi hl

theorem runPayload_selected_ok {v : Typed} (hr : r = .ok v) :
    runPayload i numx voff l r s = .next (s.give (.typed v)) := by
  rw [runPayload_ok hp (decodePayload_of_selects hP hi) hl, hr]
  rfl

theorem runPayload_selected_error {e : Err} (hr : r = .error e) :
    runPayload i numx voff l r s = .next (faultEntry e s) := by
  rw [runPayload_ok hp (decodePayload_of_selects hP hi) hl, hr]
  rfl

end

/-! ### `CONTENTFORMAT`, test by test (42_value_decode.md R154) -/

theorem vdecContentFormat_known {voff : Nat} (hf : s.byteAt voff ∈ s.cfg.contentFormats) :
    vdecContentFormat s voff 1#17 = .ok ⟨.contentFormat, s.byteAt voff, 0#20, 0#1, 0#3⟩ := by
  rw [vdecContentFormat, if_neg (not_not_intro rfl), if_pos hf]

theorem vdecContentFormat_unknown {voff : Nat} (hf : s.byteAt voff ∉ s.cfg.contentFormats) :
    vdecContentFormat s voff 1#17 = .error .invalidValue := by
  rw [vdecContentFormat, if_neg (not_not_intro rfl), if_neg hf]

theorem vdecContentFormat_badLength {voff : Nat} {l : Ext} (hl : l ≠ 1#17) :
    vdecContentFormat s voff l = .error .malformedHeader := if_pos hl

/-! ### The forms that return a variant, and the forms that fault -/

/-- Settles O20: each form is selected by its number and length, and its result is known as numbers. -/
theorem payloadFormsReturn : Obligations.PayloadFormsReturn := by
  intro s voff hp hP
  refine ⟨?uriPath, ?contentFormat, ?block21, ?block22, ?block23, ?opaqueOpt⟩
  case uriPath =>
    intro l hl
    exact runPayload_selected_ok hp hP .uriPath hl rfl
  case contentFormat =>
    intro hl hf
    exact runPayload_selected_ok hp hP .contentFormat hl (vdecContentFormat_known hf)
  case block21 =>
    intro hl
    exact runPayload_selected_ok hp hP .block21 hl (vdecBlock21_eq s voff)
  case block22 =>
    intro hl
    exact runPayload_selected_ok hp hP .block22 hl (vdecBlock22_eq s voff)
  case block23 =>
    intro hl
    exact runPayload_selected_ok hp hP .block23 hl (vdecBlock23_eq s voff)
  case opaqueOpt =>
    intro num l hl hr hu hc hb hpolicy
    exact runPayload_selected_ok hp hP (.opaqueOpt hr (typedNumber_eq_false.2 ⟨hu, hc, hb⟩) hpolicy) hl rfl

/-- Settles O21: each form is selected by its number and length, and its one fault is that of its rule; `UNKNOWN` stands at
the empty payload at offset 0, which is always inside the window. -/
theorem payloadFormsFault : Obligations.PayloadFormsFault := by
  intro s voff l hp hP hl
  refine ⟨?unknown, ?contentFormatLength, ?contentFormatValue, ?block2BadLen, ?untypedStrict⟩
  case unknown =>
    intro numx hr
    exact runPayload_selected_error hp hP (.unknown (not_registered_iff.2 hr)) (Nat.zero_le _) rfl
  case contentFormatLength =>
    intro h1
    exact runPayload_selected_error hp hP .contentFormat hl (vdecContentFormat_badLength (ne_of_apply_ne _ h1))
  case contentFormatValue =>
    intro h1 hf
    obtain rfl : l = 1#17 := BitVec.eq_of_toNat_eq h1
    exact runPayload_selected_error hp hP .contentFormat hl (vdecContentFormat_unknown hf)
  case block2BadLen =>
    intro h1 h2 h3
    exact runPayload_selected_error hp hP
      (.block2BadLen (ne_of_apply_ne _ h1) (ne_of_apply_ne _ h2) (ne_of_apply_ne _ h3)) hl rfl
  case untypedStrict =>
    intro num hr hu hc hb hpolicy
    exact runPayload_selected_error hp hP (.untypedStrict hr (typedNumber_eq_false.2 ⟨hu, hc, hb⟩) hpolicy) hl rfl

/-! ### The selected form is the construction -/

/-- Inside a step and the window, the form a number and a length select is one run of `VDEC`, whatever the parameters. -/
theorem exec_decodePayload_inside {numx : Sum} {voff : Nat} {l : Ext} (hp : s.phase = .ready)
    (hl : voff + l.toNat ≤ s.len) :
    exec (decodePayload s.cfg numx voff l) s = .next (subResult .typed (vdec s numx voff l) s) := by
  rw [vdec_eq_form]
  have hsel := decodePayload_selects (P := s.cfg) numx voff l
  generalize hi : decodePayload s.cfg numx voff l = i at hsel
  cases hsel with
  | unknown hr => exact runPayload_ok hp (if_pos hr) (Nat.zero_le _)
  | uriPath | contentFormat | block21 | block22 | block23 | block2BadLen | opaqueOpt | untypedStrict =>
    exact runPayload_ok hp hi hl

/-- Settles O22: the selected form runs `VDEC`, which is the construction on the payload's bytes. -/
theorem selectedPayloadFormConstructs : Obligations.SelectedPayloadFormConstructs := by
  intro s numx voff l hp hl
  rw [exec_decodePayload_inside hp hl, vdec_eq_construct]
  cases construct s.cfg numx.toNat (s.slice voff l.toNat) with
  | ok v => rfl
  | error e => rfl

end Sys2Proof.Machine
end

section
/-! PROOFS. The host commands and the scanner (43_commands_scanner.md): what each command does, said once; a scan as repeated
steps; and the machine that never stops. -/

namespace Sys2Proof.Machine

open Sys2Proof.Config

variable {s t : State}

/-! ### What each command does -/

theorem exec_nop (s : State) : exec .nop s = .next s := rfl

theorem exec_start (n : Nat) (q : OptNum) (s : State) :
    exec (.start n q) s = .next (if n ≤ s.cfg.bufCap then startScan n q s else s) :=
  (apply_ite Host.Outcome.next _ _ _).symm

theorem exec_scan (s : State) : exec .scan s = .next (scanSteps (s.rem + 1) s) := rfl

theorem exec_scan_not (hp : s.phase ≠ .ready) : exec .scan s = .next s := by rw [exec_scan, scanSteps_not s hp]

theorem exec_reset (s : State) : exec .reset s = .next (resetRegisters s) := rfl

theorem exec_bufwr (a : Nat) (v : Byte) (s : State) :
    exec (.bufwr a v) s = .next (if s.phase ≠ .ready ∧ a < s.cfg.bufCap then s.writeByte a v else s) :=
  (apply_ite Host.Outcome.next _ _ _).symm

theorem exec_bufrd (a : Nat) (s : State) :
    exec (.bufrd a) s = .next (s.give (.byte (if a < s.cfg.bufCap then s.byteAt a else 0#8))) := rfl

theorem exec_regrd (r : Nibble) (s : State) : exec (.regrd r) s = .next (s.give (.reg (s.regValue r))) := rfl

/-! ### The commands that run no step -/

/-- Settles O24: `NOP` has the state itself as its next state. -/
theorem nopChangesNothing : Obligations.NopChangesNothing := exec_nop

/-- Settles O25: the two cases of the test of the length; an accepted `START` is `startScan`. -/
theorem startBeginsAtOffsetZero : Obligations.StartBeginsAtOffsetZero := by
  refine fun s n q => ⟨fun hn => ?accepted, fun hn => ?refused⟩
  case accepted =>
    rw [exec_start, if_pos hn]
    rfl
  case refused => rw [exec_start, if_neg hn.not_ge]

/-- Settles O26: an accepted write is read back at its offset only (`State.byteAt_writeByte`) and is no register's. -/
theorem bufferWriteWritesOneByte : Obligations.BufferWriteWritesOneByte := by
  intro s a v hs
  constructor
  · intro hp ha
    refine ⟨s.writeByte a v, by rw [exec_bufwr, if_pos ⟨hp, ha⟩], ?same, fun b hb => ?other, ?regs, rfl, rfl, rfl, rfl⟩
    case same => rw [State.byteAt_writeByte s hs, if_pos rfl]
    case other => rw [State.byteAt_writeByte s hs, if_neg hb]
    case regs => simp [State.sameRegisters]
  · intro hrefused
    rw [exec_bufwr, if_neg (by rwa [not_and_or, not_not, not_lt])]

/-- Settles O27: the two cases of the test of the offset. -/
theorem bufferReadReturnsByte : Obligations.BufferReadReturnsByte := by
  refine fun s a => ⟨fun ha => ?inside, fun ha => ?outside⟩
  case inside =>
    rw [exec_bufrd, if_pos ha]
    rfl
  case outside =>
    rw [exec_bufrd, if_neg ha.not_gt]
    rfl

/-- The registers in the order of their numbers (10_state.md R38). -/
def State.registerTable (s : State) : List Nat :=
  [s.phase.code, s.kind.code, s.err.code, s.cur, s.len, s.prev.toNat, s.num.toNat, s.delta.toNat, s.olen.toNat, s.voff,
    s.variant.code, s.cfId.toNat, s.b2Num.toNat, s.b2M.toNat, s.b2Szx.toNat]

/-- The table has 15 registers, so number 15 reads the default. -/
theorem regValue_eq_getD (s : State) (r : Nibble) : s.regValue r = s.registerTable.getD r.toNat 0 := by
  unfold State.regValue
  have hr : r.toNat < 16 := r.isLt
  interval_cases r.toNat <;> rfl

/-- Settles O28: the register port reads the table, in which the codes are those of their rules. -/
theorem registerReadReturnsTable : Obligations.RegisterReadReturnsTable := by
  intro s r
  rw [exec_regrd, regValue_eq_getD]
  rfl

/-- Settles O29: `RESET` is `resetRegisters`. -/
theorem resetCommandClearsRegisters : Obligations.ResetCommandClearsRegisters := fun s =>
  ⟨resetRegisters s, exec_reset s, rfl, rfl, rfl, rfl, rfl, rfl, rfl, rfl, rfl, rfl, rfl, rfl, rfl, rfl, rfl, rfl, rfl,
    fun _ => rfl, rfl, rfl, rfl, rfl⟩

/-! ### `STEP` and `SCAN` -/

/-- Settles O30: in `READY` both are `frameStep`, which emits one record. -/
theorem stepNeedsReady : Obligations.StepNeedsReady := by
  refine fun s => ⟨fun hp => ?_, exec_step_not s⟩
  obtain ⟨r, hout⟩ := frameStep_out s
  exact ⟨frameStep s, r, exec_step s hp, exec_frameAt s hp, hout⟩

theorem stepTimes_succ (hp : s.phase = .ready) (n : Nat) : stepTimes (n + 1) s = stepTimes n (frameStep s) := by
  rw [stepTimes, exec_step s hp]

/-- A scan is a run of `STEP`s, each of them given in `READY`. -/
theorem stepTimes_scanSteps (n : Nat) (s : State) :
    ∃ k ≤ n, stepTimes k s = .next (scanSteps n s) ∧ ∀ m < k, ∃ u, stepTimes m s = .next u ∧ u.phase = .ready := by
  induction n generalizing s with
  | zero => exact ⟨0, le_rfl, rfl, fun m hm => absurd hm (Nat.not_lt_zero m)⟩
  | succ n ih =>
    by_cases hp : s.phase = .ready
    · obtain ⟨k, hk, hrun, hready⟩ := ih (frameStep s)
      refine ⟨k + 1, Nat.succ_le_succ hk, by rw [stepTimes_succ hp, scanSteps_succ s hp, hrun], fun m hm => ?_⟩
      cases m with
      | zero => exact ⟨s, rfl, hp⟩
      | succ m =>
        rw [stepTimes_succ hp]
        exact hready m (Nat.lt_of_succ_lt_succ hm)
    · exact ⟨0, Nat.zero_le _, by rw [scanSteps_not s hp, stepTimes], fun m hm => absurd hm (Nat.not_lt_zero m)⟩

/-- An option consumes a byte at least, so more steps than there are unconsumed bytes end in a sentinel or a fault. -/
theorem scanSteps_halts (n : Nat) (hp : s.phase = .ready) (hn : s.rem < n) :
    (scanSteps n s).phase = .halt ∧ ((scanSteps n s).kind = .endOfOptions ∨ (scanSteps n s).kind = .payloadMarker ∨
      (scanSteps n s).kind = .fault) := by
  induction n generalizing s with
  | zero => exact absurd hn (Nat.not_lt_zero _)
  | succ n ih =>
    rw [scanSteps_succ s hp]
    rcases frameStep_phase s hp with ⟨-, hready, hlt, hle⟩ | ⟨hkind, hhalt⟩
    · refine ih hready ?_
      unfold State.rem at hn ⊢
      rw [frameStep_len]
      omega
    · rw [scanSteps_not (frameStep s) (by simp [hhalt])]
      exact ⟨hhalt, hkind⟩

/-- Settles O31: `REM + 1` steps are more than there are unconsumed bytes. -/
theorem scanIsRepeatedStep : Obligations.ScanIsRepeatedStep := by
  refine fun s => ⟨fun hp => ?_, exec_scan_not⟩
  obtain ⟨n, hn, hrun, hready⟩ := stepTimes_scanSteps (s.rem + 1) s
  obtain ⟨hhalt, hkind⟩ := scanSteps_halts (s.rem + 1) hp (Nat.lt_succ_self _)
  exact ⟨n, _, hn, exec_scan s, hrun, hhalt, hkind, hready⟩

/-! ### The phases -/

theorem exec_start_phase {n : Nat} {q : OptNum} (h : exec (.start n q) s = .next t) :
    t.phase = if n ≤ s.cfg.bufCap then .ready else s.phase := by
  rw [exec_start] at h
  cases h
  exact apply_ite State.phase _ _ _

theorem exec_bufwr_phase {a : Nat} {v : Byte} (h : exec (.bufwr a v) s = .next t) : t.phase = s.phase := by
  rw [exec_bufwr] at h
  cases h
  split
  · exact writeByte_phase s a v
  · rfl

/-- Settles O32: the table's columns, one after the other. -/
theorem phaseTransitions : Obligations.PhaseTransitions := by
  intro s t
  refine ⟨?reset, fun _ _ => exec_start_phase, ?step, ?notReady, ?port⟩
  case reset =>
    rintro ⟨⟩
    exact resetRegisters_phase s
  case step =>
    intro hp h
    rw [exec_step s hp] at h
    cases h
    exact (frameStep_phase s hp).imp_left fun ⟨hkind, hready, _⟩ => ⟨hkind, hready⟩
  case notReady =>
    intro hp h
    rw [exec_step_not s hp, exec_scan_not hp, or_self] at h
    cases h
    rfl
  case port =>
    rintro a v r (⟨⟨⟩⟩ | h | ⟨⟨⟩⟩ | ⟨⟨⟩⟩)
    · rfl
    · exact exec_bufwr_phase h
    · exact give_phase s _
    · exact give_phase s _

/-! ### The machine never stops -/

/-- The commands and port operations: what a host transaction decodes to (`decodeHost_hostOperation`). -/
inductive HostOperation : Instr → Prop
  | nop : HostOperation .nop
  | start (n : Nat) (q : OptNum) : HostOperation (.start n q)
  | step : HostOperation .step
  | scan : HostOperation .scan
  | reset : HostOperation .reset
  | bufwr (a : Nat) (v : Byte) : HostOperation (.bufwr a v)
  | bufrd (a : Nat) : HostOperation (.bufrd a)
  | regrd (r : Nibble) : HostOperation (.regrd r)

/-- A transaction that its port can carry is decoded. -/
theorem decodeHost_hostOperation {P : Params} {x : HostInput} (hx : inputFits P x = true) :
    ∃ i, decodeHost P x = .ok i ∧ HostOperation i := by
  cases x with
  | cmd code lenIn prevIn =>
    rw [decodeHost, if_pos (show fits P lenIn = true from hx)]
    split
    · exact ⟨_, rfl, .nop⟩
    · exact ⟨_, rfl, .start lenIn prevIn⟩
    · exact ⟨_, rfl, .step⟩
    · exact ⟨_, rfl, .scan⟩
  | rst => exact ⟨_, rfl, .reset⟩
  | bufWrite a v => exact ⟨_, if_pos hx, .bufwr a v⟩
  | bufRead a => exact ⟨_, if_pos hx, .bufrd a⟩
  | regRead r => exact ⟨_, rfl, .regrd r⟩

/-- A command the block does not accept changes nothing; none of them stops (43_commands_scanner.md R180). -/
theorem exec_hostOperation {i : Instr} (hi : HostOperation i) (s : State) : ∃ t, exec i s = .next t := by
  cases hi with
  | nop => exact ⟨_, exec_nop s⟩
  | start n q => exact ⟨_, exec_start n q s⟩
  | step =>
    by_cases hp : s.phase = .ready
    · exact ⟨_, exec_step s hp⟩
    · exact ⟨_, exec_step_not s hp⟩
  | scan => exact ⟨_, exec_scan s⟩
  | reset => exact ⟨_, exec_reset s⟩
  | bufwr a v => exact ⟨_, exec_bufwr a v s⟩
  | bufrd a => exact ⟨_, exec_bufrd a s⟩
  | regrd r => exact ⟨_, exec_regrd r s⟩

/-- Under the invariant the host's transaction is decoded and its command runs. -/
theorem step_progress (hs : s.Inv) : ∃ t, step s = .next t := by
  cases hin : s.inputs with
  | nil => exact ⟨s, by rw [step, hin]⟩
  | cons x rest =>
    obtain ⟨i, hd, hi⟩ := decodeHost_hostOperation (hs.ports x (hin ▸ List.mem_cons_self))
    obtain ⟨t, ht⟩ := exec_hostOperation hi (s.dropInput rest)
    have hdecode : decodeInput s x = .ok i := hd
    exact ⟨t, by simp only [step, hin, hdecode, ht]⟩

theorem run_succ (h : step s = .next t) (n : Nat) : core.run (n + 1) s = core.run n t := by
  have hcore : core.step s = .next t := h
  simp only [Host.Core.run, hcore]

/-- Settles O50: each step answers a next state (`step_progress`), which has the invariant again (`everyStepKeepsInv`). -/
theorem runsNeverStop : Obligations.RunsNeverStop := by
  intro s n hs
  induction n generalizing s with
  | zero => exact ⟨s, rfl, hs⟩
  | succ n ih =>
    obtain ⟨t, ht⟩ := step_progress hs
    rw [run_succ ht]
    exact ih t (everyStepKeepsInv s t hs ht)

end Sys2Proof.Machine
end

section
/-! PROOFS. The reference encoder against the parser (44_reference_encoder.md R211 to R219). The round trip of one option is
proved over byte lists, of the source's `parseOne`, and carried over to the step by `frameStep_outcome`; a list of options is
a scan of such steps, and typed fields come back because the construction gives them back from their payload. -/

namespace Sys2Proof.Machine

open Sys2Proof.Config Sys2Proof.Reference

variable {s : State} {P : Params}

/-! ### The construction on the payloads the encoder is given -/

theorem known_of_mem {num : OptNum} (h : num ∈ P.registry) : known P num.toNat = true :=
  List.any_eq_true.2 ⟨num, h, beq_self_eq_true _⟩

/-- The provisos of 44_reference_encoder.md R217 on a number and its payload: every test of the construction passes. -/
theorem construct_acceptable {number : Nat} {payload : List Byte} (hknown : ∃ r ∈ P.registry, r.toNat = number)
    (hcontent : number = P.numContentFormat.toNat → number ≠ P.numUriPath.toNat →
      ∃ f ∈ P.contentFormats, payload = [f])
    (hblock : number = P.numBlock2.toNat → number ≠ P.numUriPath.toNat → number ≠ P.numContentFormat.toNat →
      1 ≤ payload.length ∧ payload.length ≤ 3)
    (hpolicy : P.untypedPolicy = .opaque_ ∨ number = P.numUriPath.toNat ∨ number = P.numContentFormat.toNat ∨
      number = P.numBlock2.toNat) :
    ∃ v, construct P number payload = .ok v := by
  obtain ⟨r, hr, rfl⟩ := hknown
  unfold construct
  rw [if_neg (by simp [known_of_mem hr])]
  by_cases hu : r.toNat = P.numUriPath.toNat
  · exact ⟨_, if_pos hu⟩
  by_cases hc : r.toNat = P.numContentFormat.toNat
  · obtain ⟨f, hf, rfl⟩ := hcontent hc hu
    simp only [if_neg hu, if_pos hc, if_pos hf]
    exact ⟨_, rfl⟩
  rw [if_neg hu, if_neg hc]
  by_cases hb : r.toNat = P.numBlock2.toNat
  · rw [if_pos hb]
    match payload, hblock hb hu hc with
    | [a], _ | [a, b], _ | [a, b, c], _ => exact ⟨_, rfl⟩
  · have ho : P.untypedPolicy = .opaque_ := by simpa [hu, hc, hb] using hpolicy
    rw [if_neg hb, ho]
    exact ⟨_, rfl⟩

theorem construct_uriPathPayload (hP : P.wf) (segment : List Byte) :
    construct P P.numUriPath.toNat (uriPathPayload segment) = .ok ⟨.uriPath, 0#8, 0#20, 0#1, 0#3⟩ := by
  obtain ⟨hu, -⟩ := hP
  simp [construct, known_of_mem hu]

theorem construct_contentFormatPayload (hP : P.wf) {f : Byte} {payload : List Byte}
    (h : contentFormatPayload P f = .ok payload) :
    construct P P.numContentFormat.toNat payload = .ok ⟨.contentFormat, f, 0#20, 0#1, 0#3⟩ := by
  obtain ⟨-, hc, -, huc, -⟩ := hP
  unfold contentFormatPayload at h
  split at h
  · cases h
    simp [construct, known_of_mem hc, BitVec.toNat_inj, huc.symm, *]
  · cases h

theorem length_block2Payload (n : BitVec 20) (m : BitVec 1) (z : BitVec 3) : (block2Payload n m z).length ≤ 3 := by
  unfold block2Payload
  split
  · simp
  · split <;> simp

/-- The payload's bytes, read big-endian, are the word they were cut from (44_reference_encoder.md R214). -/
theorem construct_block2Payload (hP : P.wf) (n : BitVec 20) (m : BitVec 1) (z : BitVec 3) :
    construct P P.numBlock2.toNat (block2Payload n m z) = .ok ⟨.block2, 0#8, n, m, z⟩ := by
  obtain ⟨-, -, hb, -, hub, hcb, -⟩ := hP
  have := n.isLt
  have := m.isLt
  have := z.isLt
  rw [← block2Fields_ofFields n m z]
  unfold construct
  rw [if_neg (by simp [known_of_mem hb]), if_neg (mt BitVec.eq_of_toNat_eq hub.symm),
    if_neg (mt BitVec.eq_of_toNat_eq hcb.symm), if_pos rfl]
  unfold block2Payload
  simp only
  generalize hw : n.toNat * 16 + m.toNat * 8 + z.toNat = w
  by_cases h1 : n.toNat ≤ 15
  · have hword : w % 256 = w := by omega
    simp [h1, hword]
  by_cases h2 : n.toNat ≤ 4095
  · have hword : w / 256 % 256 * 256 + w % 256 = w := by omega
    simp [h1, h2, hword]
  · have hword : w / 65536 % 256 * 65536 + w / 256 % 256 * 256 + w % 256 = w := by omega
    simp [h1, h2, hword]

/-- Settles O23: the selected form is the construction on the payload's bytes, which gives the fields back. -/
theorem blockFieldsRoundTrip : Obligations.BlockFieldsRoundTrip := by
  intro s voff n m z hp hP hl hbytes
  have hlen : (BitVec.ofNat 17 (block2Payload n m z).length).toNat = (block2Payload n m z).length := by
    have := length_block2Payload n m z
    rw [BitVec.toNat_ofNat]
    omega
  rw [exec_decodePayload_inside hp (by rwa [hlen]), vdec_eq_construct, hlen, hbytes,
    BitVec.toNat_setWidth_of_le (by decide), construct_block2Payload hP]
  rfl

/-! ### One option over byte lists -/

/-- The source parses a serialized option back, whatever follows it (44_reference_encoder.md R217). -/
theorem parseOne_serialize {number prev : Nat} {payload frame : List Byte} {v : Typed}
    (hser : serialize number prev payload = .ok frame) (hhead : frame.head? ≠ some P.payloadMarker)
    (hv : construct P number payload = .ok v) (rest : List Byte) :
    parseOne P (frame ++ rest) prev = .option number (number - prev) payload v rest := by
  obtain ⟨hprev, dm, dext, lm, lext, hd, hl, rfl⟩ := serialize_ok hser
  obtain ⟨-, hdm, hdelta⟩ := decodeExtended_encodeExtended hd
  obtain ⟨-, hlm, hlength⟩ := decodeExtended_encodeExtended hl
  have hheader : (BitVec.ofNat 8 (dm * 16 + lm)).toNat = dm * 16 + lm := by
    rw [BitVec.toNat_ofNat]
    omega
  have hmarkers : (dm * 16 + lm) / 16 = dm ∧ (dm * 16 + lm) % 16 = lm := by omega
  have hmark : BitVec.ofNat 8 (dm * 16 + lm) ≠ P.payloadMarker := by simpa using hhead
  have hnumber : prev + (number - prev) = number := by omega
  simp [parseOne, hmark, hheader, hmarkers, hdelta, hlength, parsePayload, hnumber, hv]

/-! ### One option at the cursor -/

theorem remainder_eq_append {bytes : List Byte} (hlen : bytes.length ≤ s.rem) (hbytes : s.slice s.cur bytes.length = bytes) :
    s.remainder = bytes ++ s.slice (s.cur + bytes.length) (s.rem - bytes.length) := by
  rw [State.remainder, ← Nat.add_sub_cancel' hlen, State.slice_add, hbytes, Nat.add_sub_cancel_left]

theorem length_remainder (s : State) : s.remainder.length = s.rem := State.length_slice ..

/-- What a step commits when it parses back a serialized option that stands at the cursor, `rest` standing after it. -/
structure ParsedBack (s : State) (number : Nat) (payload frame rest : List Byte) (v : Typed) (d l : Ext) (p : Nat) : Prop where
  step_eq : frameStep s = commit d l p v s
  number_eq : ((s.numx d).setWidth 16).toNat = number
  delta_eq : d.toNat = number - s.prev.toNat
  payload_eq : s.slice p l.toNat = payload
  cursor_eq : p + l.toNat = s.cur + frame.length
  remainder_eq : (frameStep s).remainder = rest

theorem ParsedBack.length_eq {number p : Nat} {payload frame rest : List Byte} {v : Typed} {d l : Ext}
    (h : ParsedBack s number payload frame rest v d l p) : l.toNat = payload.length := by
  rw [← h.payload_eq, State.length_slice]

/-- The round trip over byte lists, carried over to the step by the refinement of `parseOne`. -/
theorem frameStep_serialized {number : Nat} {payload frame rest : List Byte} {v : Typed}
    (hser : serialize number s.prev.toNat payload = .ok frame) (hrem : s.remainder = frame ++ rest)
    (hhead : frame.head? ≠ some s.cfg.payloadMarker) (hv : construct s.cfg number payload = .ok v) :
    ∃ d l p, ParsedBack s number payload frame rest v d l p := by
  have h := frameStep_outcome s
  rw [hrem, parseOne_serialize hser hhead hv] at h
  generalize hstep : frameStep s = t at h
  cases h with
  | @option d l p _ _ _ _ _ ha hn hd hpayload hrest =>
    have hremainder : (frameStep s).remainder = rest := by
      rw [hstep]
      exact hrest.symm
    have hlen := congrArg List.length hrem
    have hlen' := congrArg List.length hrest
    rw [length_remainder, List.length_append] at hlen
    rw [State.length_slice] at hlen'
    unfold State.rem at hlen
    have := ha.after_header
    have := ha.inside
    exact ⟨d, l, p, hstep, ha.num_toNat.trans hn.symm, hd.symm, hpayload.symm, by omega, hremainder⟩

/-- The first byte of a serialized option is the byte at the cursor. -/
theorem head?_ne_of_byteAt {frame rest : List Byte} (hrem : s.remainder = frame ++ rest)
    (hm : s.byteAt s.cur ≠ s.cfg.payloadMarker) : frame.head? ≠ some s.cfg.payloadMarker := by
  intro h
  obtain ⟨tail, rfl⟩ := List.head?_eq_some_iff.1 h
  have hr : s.rem ≠ 0 := by
    rw [← length_remainder, hrem]
    simp
  rw [State.remainder_cons s hr] at hrem
  exact hm (List.cons.inj hrem).1

/-- `STEP` on a serialized option, under the hypotheses of R217 and R219. -/
theorem exec_step_serialized {number : Nat} {payload frame : List Byte} {v : Typed} (hp : s.phase = .ready)
    (hser : serialize number s.prev.toNat payload = .ok frame) (hlen : frame.length ≤ s.rem)
    (hbytes : s.slice s.cur frame.length = frame) (hm : s.byteAt s.cur ≠ s.cfg.payloadMarker)
    (hv : construct s.cfg number payload = .ok v) :
    ∃ d l p rest, ParsedBack s number payload frame rest v d l p ∧ exec .step s = .next (commit d l p v s) := by
  have hrem := remainder_eq_append hlen hbytes
  obtain ⟨d, l, p, h⟩ := frameStep_serialized hser hrem (head?_ne_of_byteAt hrem hm) hv
  exact ⟨d, l, p, _, h, by rw [exec_step s hp, h.step_eq]⟩

/-- Settles O51: the provisos make the construction succeed, and the option is committed as it was serialized. -/
theorem serializedOptionParsesBack : Obligations.SerializedOptionParsesBack := by
  intro s number payload frame hp hser hlen hbytes hm hknown hcontent hblock hpolicy
  obtain ⟨v, hv⟩ := construct_acceptable hknown hcontent hblock hpolicy
  obtain ⟨d, l, p, rest, h, hstep⟩ := exec_step_serialized hp hser hlen hbytes hm hv
  exact ⟨_, hstep, rfl, h.number_eq, h.delta_eq, h.length_eq, h.payload_eq, h.cursor_eq⟩

/-- Settles O53: the construction gives each variant's fields back from their payload, and the step commits them. -/
theorem typedFieldsParseBack : Obligations.TypedFieldsParseBack := by
  intro s frame hP hp hlen hbytes hm
  refine ⟨?block2, ?contentFormat, ?uriPath⟩
  case block2 =>
    intro n m z hser
    obtain ⟨d, l, p, rest, h, hstep⟩ := exec_step_serialized hp hser hlen hbytes hm (construct_block2Payload hP n m z)
    exact ⟨_, hstep, rfl, BitVec.eq_of_toNat_eq h.number_eq, rfl, rfl, rfl, rfl, rfl, h.cursor_eq⟩
  case contentFormat =>
    intro f payload hf hser
    obtain ⟨d, l, p, rest, h, hstep⟩ :=
      exec_step_serialized hp hser hlen hbytes hm (construct_contentFormatPayload hP hf)
    exact ⟨_, hstep, rfl, BitVec.eq_of_toNat_eq h.number_eq, rfl, rfl, rfl, rfl, rfl, h.cursor_eq⟩
  case uriPath =>
    intro segment hser
    obtain ⟨d, l, p, rest, h, hstep⟩ :=
      exec_step_serialized hp hser hlen hbytes hm (construct_uriPathPayload hP segment)
    exact ⟨_, hstep, rfl, BitVec.eq_of_toNat_eq h.number_eq, rfl, h.payload_eq, rfl, rfl, rfl, rfl, h.cursor_eq⟩


/-! ### A list of options -/

theorem serializeAll_cons_ok {prev : Nat} {o : Nat × List Byte} {options : List (Nat × List Byte)} {bytes : List Byte}
    (h : serializeAll prev (o :: options) = .ok bytes) :
    ∃ frame frames, serialize o.1 prev o.2 = .ok frame ∧ serializeAll o.1 options = .ok frames ∧
      bytes = frame ++ frames := by
  rw [serializeAll] at h
  split at h
  · cases h
  · split at h
    · cases h
    · cases h
      exact ⟨_, _, ‹_›, ‹_›, rfl⟩

/-- No option of a serialized list has the payload marker as its header byte. -/
def HeadersUnmarked (marker : Byte) (prev : Nat) (options : List (Nat × List Byte)) : Prop :=
  ∀ (before after : List (Nat × List Byte)) (o : Nat × List Byte) (frame : List Byte), options = before ++ o :: after →
    serialize o.1 ((before.getLast?.map Prod.fst).getD prev) o.2 = .ok frame → frame.head? ≠ some marker

section
variable {marker : Byte} {prev : Nat} {o : Nat × List Byte} {options : List (Nat × List Byte)}

theorem HeadersUnmarked.head (h : HeadersUnmarked marker prev (o :: options)) {frame : List Byte}
    (hser : serialize o.1 prev o.2 = .ok frame) : frame.head? ≠ some marker := h [] options o frame rfl hser

theorem HeadersUnmarked.tail (h : HeadersUnmarked marker prev (o :: options)) : HeadersUnmarked marker o.1 options := by
  intro before after o' frame hsplit hser
  refine h (o :: before) after o' frame (congrArg (o :: ·) hsplit) ?_
  rw [List.getLast?_cons]
  cases hlast : before.getLast? <;> simpa [hlast] using hser

end

/-- The record that an option of number `o.1` and payload `o.2` leaves on `OUT`, its payload standing in the buffer. -/
def RecordOf (slice : Nat → Nat → List Byte) (P : Params) (o : Nat × List Byte) (r : Record) : Prop :=
  ∃ (num : OptNum) (d l : Ext) (voff : Nat) (v : Typed) (cur : Nat),
    r = .option num d l voff v.variant v.cfId v.b2Num v.b2M v.b2Szx cur ∧ num.toNat = o.1 ∧
      slice voff l.toNat = o.2 ∧ construct P o.1 o.2 = .ok v

/-- A scan from `s` comes to the state `u` after the options, which were serialized as `bytes`; `rest` is unconsumed. -/
structure ScansTo (s : State) (options : List (Nat × List Byte)) (bytes rest : List Byte) (u : State) : Prop where
  ready : u.phase = .ready
  cfg_eq : u.cfg = s.cfg
  byteAt_eq : u.byteAt = s.byteAt
  cursor_eq : u.cur = s.cur + bytes.length
  remainder_eq : u.remainder = rest
  records : ∃ records, u.out = s.out ++ records ∧ List.Forall₂ (RecordOf s.slice s.cfg) options records
  scan_eq : ∀ n, s.rem < n → ∃ k, u.rem < k ∧ scanSteps n s = scanSteps k u

theorem slice_eq_of_byteAt_eq {t : State} (h : t.byteAt = s.byteAt) : t.slice = s.slice := by
  funext a n
  simp only [State.slice, h]

theorem byteAt_frameStep_eq (s : State) : (frameStep s).byteAt = s.byteAt := funext (byteAt_frameStep s)

theorem ScansTo.nil {rest : List Byte} (hp : s.phase = .ready) (hrem : s.remainder = rest) : ScansTo s [] [] rest s where
  ready := hp
  cfg_eq := rfl
  byteAt_eq := rfl
  cursor_eq := rfl
  remainder_eq := hrem
  records := ⟨[], (List.append_nil _).symm, .nil⟩
  scan_eq n hn := ⟨n, hn, rfl⟩

section
variable {o : Nat × List Byte} {frame rest : List Byte} {v : Typed} {d l : Ext} {p : Nat}
  (h : ParsedBack s o.1 o.2 frame rest v d l p)
include h

theorem ParsedBack.phase_eq : (frameStep s).phase = s.phase := h.step_eq ▸ rfl

theorem ParsedBack.prev_eq : (frameStep s).prev.toNat = o.1 := by
  rw [h.step_eq, commit_prev, h.number_eq]

theorem ParsedBack.rem_lt (hp : s.phase = .ready) : (frameStep s).rem < s.rem := by
  have hkind : (frameStep s).kind = .option := h.step_eq ▸ rfl
  rcases frameStep_phase s hp with ⟨-, -, hlt, hle⟩ | ⟨hother, -⟩
  · unfold State.rem
    rw [frameStep_len]
    omega
  · simp [hkind] at hother

theorem ParsedBack.record (hv : construct s.cfg o.1 o.2 = .ok v) :
    ∃ r, (frameStep s).out = s.out ++ [r] ∧ RecordOf s.slice s.cfg o r := by
  rw [h.step_eq]
  exact ⟨_, commit_out s d l p v, _, d, l, p, v, _, rfl, h.number_eq, h.payload_eq, hv⟩

/-- One more option before the others: its step, then the scan of the others. -/
theorem ParsedBack.scansTo {options : List (Nat × List Byte)} {bytes rest' : List Byte} {u : State}
    (hp : s.phase = .ready) (hv : construct s.cfg o.1 o.2 = .ok v) (hu : ScansTo (frameStep s) options bytes rest' u) :
    ScansTo s (o :: options) (frame ++ bytes) rest' u where
  ready := hu.ready
  cfg_eq := hu.cfg_eq.trans (frameStep_cfg s)
  byteAt_eq := hu.byteAt_eq.trans (byteAt_frameStep_eq s)
  cursor_eq := by
    rw [hu.cursor_eq, h.step_eq, commit_cur, h.cursor_eq, List.length_append, Nat.add_assoc]
  remainder_eq := hu.remainder_eq
  records := by
    obtain ⟨r, hout, hr⟩ := h.record hv
    obtain ⟨records, hout', hrecords⟩ := hu.records
    rw [frameStep_cfg, slice_eq_of_byteAt_eq (byteAt_frameStep_eq s)] at hrecords
    exact ⟨r :: records, by rw [hout', hout, List.append_assoc, List.singleton_append], .cons hr hrecords⟩
  scan_eq n hn := by
    obtain ⟨k, hk⟩ := Nat.exists_eq_succ_of_ne_zero (Nat.ne_zero_of_lt hn)
    rw [hk, scanSteps_succ s hp]
    have := h.rem_lt hp
    exact hu.scan_eq k (by omega)

end

/-- Options serialized in order are scanned one by one (44_reference_encoder.md R218). -/
theorem scansTo_of_serializeAll {options : List (Nat × List Byte)} {bytes rest : List Byte} (hp : s.phase = .ready)
    (hser : serializeAll s.prev.toNat options = .ok bytes) (hrem : s.remainder = bytes ++ rest)
    (hv : ∀ o ∈ options, ∃ v, construct s.cfg o.1 o.2 = .ok v)
    (hheaders : HeadersUnmarked s.cfg.payloadMarker s.prev.toNat options) : ∃ u, ScansTo s options bytes rest u := by
  induction options generalizing s bytes with
  | nil =>
    cases hser
    exact ⟨s, .nil hp hrem⟩
  | cons o options ih =>
    obtain ⟨frame, frames, hframe, hframes, rfl⟩ := serializeAll_cons_ok hser
    obtain ⟨v, hvo⟩ := hv o List.mem_cons_self
    rw [List.append_assoc] at hrem
    obtain ⟨d, l, p, h⟩ := frameStep_serialized hframe hrem (hheaders.head hframe) hvo
    obtain ⟨u, hu⟩ := ih (h.phase_eq.trans hp) (h.prev_eq ▸ hframes) h.remainder_eq
      (fun o' ho' => by simpa using hv o' (List.mem_cons_of_mem o ho')) (by simpa [h.prev_eq] using hheaders.tail)
    exact ⟨u, h.scansTo hp hvo hu⟩

/-- A step that halts is the last of its scan. -/
theorem scanSteps_of_halt {n : Nat} (hp : s.phase = .ready) (hn : s.rem < n) (hhalt : (frameStep s).phase = .halt) :
    scanSteps n s = frameStep s := by
  obtain ⟨k, rfl⟩ := Nat.exists_eq_succ_of_ne_zero (Nat.ne_zero_of_lt hn)
  rw [scanSteps_succ s hp, scanSteps_not _ (by simp [hhalt])]

theorem ScansTo.exec_scan {options : List (Nat × List Byte)} {bytes rest : List Byte} {u : State}
    (hu : ScansTo s options bytes rest u) (hhalt : (frameStep u).phase = .halt) :
    exec .scan s = .next (frameStep u) := by
  obtain ⟨k, hk, hscan⟩ := hu.scan_eq (s.rem + 1) (Nat.lt_succ_self _)
  rw [Machine.exec_scan, hscan, scanSteps_of_halt hu.ready hk hhalt]

/-- Settles O52: a scan comes through the options (`scansTo_of_serializeAll`), and its last step finds an empty remainder or
the marker. -/
theorem serializedListScansBack : Obligations.SerializedListScansBack := by
  intro s options bytes hp hser hlen hbytes hv hheaders hend
  obtain ⟨u, hu⟩ := scansTo_of_serializeAll hp hser (remainder_eq_append hlen hbytes) hv hheaders
  obtain ⟨records, hout, hrecords⟩ := hu.records
  rw [← slice_eq_of_byteAt_eq hu.byteAt_eq] at hrecords
  have hrem : u.rem = s.rem - bytes.length := by rw [← length_remainder, hu.remainder_eq, State.length_slice]
  by_cases hlast : s.rem = bytes.length
  · have hstep : frameStep u = endOfOptions u := frameStep_empty (by omega)
    refine ⟨endOfOptions u, records, .endOfOptions u.cur, ?scan, ?out, hrecords, fun _ => ⟨?cursor, rfl⟩,
      fun h => absurd hlast h⟩
    case scan => rw [hu.exec_scan (by rw [hstep]; rfl), hstep]
    case out => rw [endOfOptions_out, hout]
    case cursor => rw [hu.cursor_eq]
  · have hmarker : u.byteAt u.cur = u.cfg.payloadMarker := by
      rw [hu.byteAt_eq, hu.cursor_eq, hu.cfg_eq]
      exact hend.resolve_left hlast
    have hstep : frameStep u = payloadMarker u := frameStep_marker (by omega) hmarker
    refine ⟨payloadMarker u, records, .payloadMarker (u.cur + 1), ?scan, ?out, hrecords, fun h => absurd h hlast,
      fun _ => ⟨?cursor, rfl, ?remainder⟩⟩
    case scan => rw [hu.exec_scan (by rw [hstep]; rfl), hstep]
    case out => rw [payloadMarker_out, hout]
    case cursor => rw [hu.cursor_eq]
    case remainder =>
      rw [remainder_payloadMarker, ← Nat.sub_sub, ← State.rem, hrem, hu.cursor_eq, slice_eq_of_byteAt_eq hu.byteAt_eq]

end Sys2Proof.Machine
end

section
/-! PROOFS. Faults (60_exceptions.md): the order in which a step finds the defects of a frame (R236), the state a fault leaves
(R240), and that only `START` and `RESET` leave `HALT` (R242). -/

namespace Sys2Proof.Machine

open Sys2Proof.Config Sys2Proof.Reference

variable {s t : State} {P : Params}

/-! ### Fault entry -/

/-- Settles O43: of the four outcomes of a step, only fault entry has the kind of a fault. -/
theorem faultEntryState : Obligations.FaultEntryState := by
  intro s t hp h hfault
  rw [exec_step s hp] at h
  cases h
  rcases frameStep_cases s with ⟨-, h⟩ | ⟨-, -, h⟩ | ⟨e, -, -, hraised, h⟩ | ⟨d, l, p, v, -, -, -, h⟩ <;>
    rw [h] at hfault ⊢
  · cases hfault
  · cases hfault
  · exact ⟨hraised, rfl, rfl, rfl⟩
  · cases hfault

/-! ### After a halt -/

/-- Outside `READY` no step runs, so beside `START` and `RESET` there is left what writes a byte or returns a value. -/
theorem exec_sameRegisters_not_ready {i : Instr} (hp : s.phase ≠ .ready) (h : exec i s = .next t) (hreset : i ≠ .reset)
    (hstart : ∀ (n : Nat) (q : OptNum), i ≠ .start n q) : t.sameRegisters s := by
  rcases exec_cases s h with rfl | ⟨hr, -⟩ | ⟨-, rfl⟩ | ⟨n, q, hi, -⟩ | ⟨hi, -⟩ | ⟨a, v, -, -, -, rfl⟩ | ⟨r, rfl⟩ |
    ⟨e, hr, -⟩
  · simp [State.sameRegisters]
  · exact absurd hr hp
  · rw [scanSteps_not s hp]
    simp [State.sameRegisters]
  · exact absurd hi (hstart n q)
  · exact absurd hi hreset
  · simp [State.sameRegisters]
  · simp [State.sameRegisters]
  · exact absurd hr hp

/-- Settles O41: a halted block is not in `READY`. -/
theorem haltKeepsRegisters : Obligations.HaltKeepsRegisters := by
  intro i s t hp h hreset hstart
  have hready : s.phase ≠ .ready := by simp [hp]
  exact ⟨exec_sameRegisters_not_ready hready h hreset hstart, exec_out_not_ready hready h⟩

/-! ### The first defect of a list -/

/-- The first defect of a list that begins with a test: its fault if it applies, else the first of the rest. -/
theorem firstDefect_cons (b : Bool) (e : Err) (ds : List (Bool × Err)) :
    (((b, e) :: ds).find? fun d => d.1).map (fun d => d.2) =
      if b = true then some e else (ds.find? fun d => d.1).map fun d => d.2 := by
  cases b <;> rfl

/-! ### The defects of the construction -/

/-- The fault of a result. -/
def faultOf : Except Err Typed → Option Err
  | .error e => some e
  | .ok _ => none

/-- The last four defects of 60_exceptions.md R236, of an option number and a payload of `length` bytes that begins with
`first`. -/
def constructionDefect (P : Params) (number length : Nat) (first : Byte) : Option Err :=
  if known P number = false then some .unknownOption
  else if ¬ (number = P.numUriPath.toNat ∨ number = P.numContentFormat.toNat ∨ number = P.numBlock2.toNat) ∧
    P.untypedPolicy = .strict then some .unknownOption
  else if (number = P.numContentFormat.toNat ∧ length ≠ 1) ∨
    (number = P.numBlock2.toNat ∧ length ≠ 1 ∧ length ≠ 2 ∧ length ≠ 3) then some .malformedHeader
  else if number = P.numContentFormat.toNat ∧ first ∉ P.contentFormats then some .invalidValue
  else none

/-- The construction meets its defects in that order; the typed numbers are distinct, so no test is another's. -/
theorem faultOf_construct (hP : P.wf) (number : Nat) {payload : List Byte} {first : Byte}
    (hfirst : ∀ f, payload = [f] → f = first) :
    faultOf (construct P number payload) = constructionDefect P number payload.length first := by
  obtain ⟨-, -, -, huc, hub, hcb, -⟩ := hP
  have huc := mt BitVec.eq_of_toNat_eq huc
  have hub := mt BitVec.eq_of_toNat_eq hub
  have hcb := mt BitVec.eq_of_toNat_eq hcb
  unfold construct constructionDefect
  by_cases hk : known P number = false
  · rw [if_pos hk, if_pos hk, faultOf]
  rw [if_neg hk, if_neg hk]
  by_cases hu : number = P.numUriPath.toNat
  · simp [hu, huc, hub, faultOf]
  by_cases hc : number = P.numContentFormat.toNat
  · subst hc
    match payload with
    | [f] =>
      obtain rfl := hfirst f rfl
      by_cases hf : f ∈ P.contentFormats <;> simp [Ne.symm huc, hcb, hf, faultOf]
    | [] | _ :: _ :: _ => simp [Ne.symm huc, faultOf]
  by_cases hb : number = P.numBlock2.toNat
  · subst hb
    match payload with
    | [_] | [_, _] | [_, _, _] => simp [Ne.symm hub, Ne.symm hcb, faultOf]
    | [] | _ :: _ :: _ :: _ :: _ => simp [Ne.symm hub, Ne.symm hcb, faultOf]
  · cases hpolicy : P.untypedPolicy <;> simp [hu, hc, hb, faultOf]

/-! ### The defects of the frame at the cursor -/

/-- 60_exceptions.md R236: the tests of the header and the two bounds, then those of the construction. -/
theorem firstDefect_eq (s : State) :
    let dm := deltaMarker (s.byteAt s.cur)
    let lm := lengthMarker (s.byteAt s.cur)
    let dx := (markerClass dm).extBytes
    let lx := (markerClass lm).extBytes
    let length := s.fieldValue lm (s.cur + 1 + dx)
    s.firstDefect =
      if dm = 15#4 then some .malformedHeader
      else if s.rem < 1 + dx then some .truncatedInput
      else if lm = 15#4 then some .malformedHeader
      else if s.rem < 1 + dx + lx then some .truncatedInput
      else if s.rem < 1 + dx + lx + length then some .truncatedInput
      else constructionDefect s.cfg (s.prev.toNat + s.fieldValue dm (s.cur + 1)) length
        (s.byteAt (s.cur + 1 + dx + lx)) := by
  intro dm lm dx lx length
  simp only [State.firstDefect, State.defects, firstDefect_cons, decide_eq_true_eq, Bool.not_eq_true',
    List.find?_nil, Option.map_none]
  simp only [constructionDefect, State.fieldValue, length, Nat.add_assoc]
  rfl

/-- What a step makes of a frame that is no sentinel, against the fault of its first defect. -/
inductive DefectOutcome (s : State) : Option Err → State → Prop
  | fault (e : Err) : DefectOutcome s (some e) (faultEntry e s)
  | option (d l : Ext) (p : Nat) (v : Typed) : DefectOutcome s none (commit d l p v s)

/-- The rest of a step, after both extended fields. -/
theorem finishOption_defect (hP : s.cfg.wf) {d l p : Nat} (hd : d ≤ 65804) (hl : l ≤ 65804) :
    DefectOutcome s
      (if s.len - p < l then some .truncatedInput
        else constructionDefect s.cfg (s.prev.toNat + d) l (s.byteAt p))
      (finishOption (BitVec.ofNat 17 d) (BitVec.ofNat 17 l) p s) := by
  rw [finishOption_eq s d l p hd hl]
  by_cases hlen : s.len - p < l
  · rw [if_pos hlen, if_pos hlen]
    exact .fault _
  rw [if_neg hlen, if_neg hlen]
  have hfirst : ∀ f, s.slice p l = [f] → f = s.byteAt p := by
    intro f hf
    have hone : l = 1 := by simpa using congrArg List.length hf
    rw [hone, State.slice_one] at hf
    exact (List.singleton_inj.1 hf).symm
  have hdefect := faultOf_construct hP (s.prev.toNat + d) hfirst
  rw [State.length_slice] at hdefect
  rw [← hdefect]
  cases construct s.cfg (s.prev.toNat + d) (s.slice p l) with
  | error e => exact .fault e
  | ok v => exact .option _ _ p v

/-- A step finds the defects in the order of 60_exceptions.md R236. -/
theorem frameStep_firstDefect (hP : s.cfg.wf) (hr : s.rem ≠ 0) (hm : s.byteAt s.cur ≠ s.cfg.payloadMarker) :
    DefectOutcome s s.firstDefect (frameStep s) := by
  rw [firstDefect_eq, frameStep_header hr hm]
  generalize deltaMarker (s.byteAt s.cur) = dm
  generalize lengthMarker (s.byteAt s.cur) = lm
  by_cases hd : dm = 15#4
  · subst hd
    rw [if_pos rfl, optionFrame_reservedDelta]
    exact .fault _
  rw [if_neg hd]
  by_cases hl : lm = 15#4
  · subst hl
    rw [optionFrame_reservedLength hd hr, if_pos rfl, ← apply_ite]
    exact .fault _
  rw [if_neg hl, optionFrame_eq s dm lm hd hl hr]
  by_cases hlx : s.rem < 1 + (markerClass dm).extBytes + (markerClass lm).extBytes
  · simp only [if_pos hlx, ite_self]
    exact .fault _
  rw [if_neg (by omega), if_neg hlx, if_neg hlx]
  have hbound (n : Nat) : s.rem < 1 + (markerClass dm).extBytes + (markerClass lm).extBytes + n ↔
      s.len - (s.cur + 1 + (markerClass dm).extBytes + (markerClass lm).extBytes) < n := by
    unfold State.rem at *
    omega
  simp only [hbound]
  exact finishOption_defect hP (s.fieldValue_le _ _) (s.fieldValue_le _ _)

/-- Settles O14: the sentinels are tested first, and the rest is `frameStep_firstDefect`. -/
theorem firstDefectIsReported : Obligations.FirstDefectIsReported := by
  intro s hP hp
  refine ⟨frameStep s, exec_step s hp, fun hr => ?empty, fun hr hm => ?marker, fun hr hm => ?frame⟩
  case empty =>
    rw [frameStep_empty hr]
    exact ⟨rfl, rfl⟩
  case marker =>
    rw [frameStep_marker hr hm]
    exact ⟨rfl, rfl⟩
  case frame =>
    have h := frameStep_firstDefect hP hr hm
    generalize s.firstDefect = defect at h ⊢
    generalize frameStep s = t at h ⊢
    cases h with
    | fault e =>
      refine ⟨fun e' he => ?_, fun he => nomatch he⟩
      cases he
      exact ⟨rfl, rfl, rfl, rfl⟩
    | option d l p v => exact ⟨fun e he => (nomatch he), fun _ => ⟨rfl, rfl⟩⟩

end Sys2Proof.Machine
end
